-- ==== Sys2Proof/Word.lean ====
section
/-! DEFINITION. The two data widths of the CPU (R9, R13): byte and word. -/

namespace Sys2Proof

/-- 8 bits (R13). -/
abbrev Byte := BitVec 8

/-- 16 bits: word data, an address, the program counter (R13, R27, R50). -/
abbrev Word := BitVec 16

end Sys2Proof
end

