-- ==== Sys2Proof/Config.lean ====
section
/-! DEFINITION. What a chip of the series fixes and the CPU manual leaves open (R9): the memory map, the reset
vector, the interrupt controller's sources and the wake set, as plain data; and the free values `any(n)` (R11). -/

namespace Sys2Proof.Machine

/-- What an address of the map leads to (R9, R64). -/
inductive RegionKind
  /-- Reads as memory; a write is dropped (R64, D7). -/
  | rom
  /-- Reads as memory; a write is stored. -/
  | ram
  /-- A register of an on-chip peripheral module: the device answers reads and is handed writes (R64). -/
  | device
  /-- Nothing: a read gives `any(8)` per byte, a write is dropped (R64, D7). -/
  | unmapped
deriving DecidableEq, Repr

/-- A range of addresses `base .. base + size - 1` of one kind (R9, R52). -/
structure Region where
  base : Nat
  size : Nat
  kind : RegionKind
  /-- "access in word size is not possible" here (R61). -/
  byteOnly : Bool
deriving DecidableEq, Repr

/-- One interrupt source of `IntCtl` (R336). Its place in the list of sources is its priority. -/
structure IntSource where
  /-- The name by which the environment requests it. -/
  id : Nat
  /-- The address of its vector table entry (R333). -/
  vector : Word
  /-- An NMI-like source, which CCR.I does not mask (R336). -/
  nonmaskable : Bool
  /-- A member of `WakeSet`: its request ends the power-down state (R301, D16). -/
  wakes : Bool
deriving DecidableEq, Repr

/-- The parameters of the model (R9, R41), fixed for a chip: no step changes them. -/
structure Chip where
  /-- `MemMap`: the first region that holds an address decides; an address in no region is RAM. -/
  memMap : List Region
  /-- `ResetVector` (R333, D15). -/
  resetVector : Word
  /-- `IntCtl.Sources`, highest priority first (R336). -/
  sources : List IntSource
deriving DecidableEq, Repr

/-- The defaults of R9: RAM everywhere, the reset vector at H'0000, no interrupt source. -/
def Chip.default : Chip where
  memMap := []
  resetVector := 0x0000#16
  sources := []

/-- The `k`-th `any(w)` of a run (R11): a `w`-bit value nothing fixes. DESIGN CHOICE (log 8): a fresh one for every
draw. Safe: it has no body, so no proof can use what it is. -/
opaque Config.anyBits (w k : Nat) : BitVec w

/-- What the byte of memory at address `a` reads as while nothing has written it (R374, U14). DESIGN CHOICE (log 6):
one free value for each address. Safe: it has no body. -/
opaque Config.powerOnByte (a : Nat) : Byte

end Sys2Proof.Machine
end

