-- ==== Sys2Proof/Syntax.lean ====
section
/-! DEFINITION. The instructions: one constructor for each row of spec/opcode_table.json, operands in the manual's
order, source first (R106). The rule that gives a row its meaning is named with it. -/

namespace Sys2Proof

/-- The eight 16-bit general registers (R20, R21); R7 is the stack pointer (R24). -/
inductive Reg16
  | r0 | r1 | r2 | r3 | r4 | r5 | r6 | r7
deriving DecidableEq, Repr

/-- The sixteen 8-bit general registers: RnH and RnL (R20, R21). -/
inductive Reg8
  /-- RnH, the upper byte of Rn. -/
  | hi (n : Reg16)
  /-- RnL, the lower byte of Rn. -/
  | lo (n : Reg16)
deriving DecidableEq, Repr

/-- The 16-bit register an 8-bit register is half of (R21). -/
def Reg8.pair : Reg8 → Reg16
  | .hi n => n
  | .lo n => n

/-- The instructions of spec/opcode_table.json. -/
inductive Instr
  -- Data transfer: MOV.B (R121 to R132)
  | movBReg (rs rd : Reg8)
  | movBImm (imm : Byte) (rd : Reg8)
  | movBInd (rm : Reg16) (rd : Reg8)
  | movBDisp (disp : Word) (rm : Reg16) (rd : Reg8)
  | movBPostInc (rm : Reg16) (rd : Reg8)
  | movBAbs8 (aa : Byte) (rd : Reg8)
  | movBAbs16 (aa : Word) (rd : Reg8)
  | movBToInd (rs : Reg8) (rm : Reg16)
  | movBToDisp (rs : Reg8) (disp : Word) (rm : Reg16)
  | movBPreDec (rs : Reg8) (rm : Reg16)
  | movBToAbs8 (rs : Reg8) (aa : Byte)
  | movBToAbs16 (rs : Reg8) (aa : Word)
  -- Data transfer: MOV.W (R133 to R142), POP (R143), PUSH (R144)
  | movWReg (rs rd : Reg16)
  | movWImm (imm : Word) (rd : Reg16)
  | movWInd (rm rd : Reg16)
  | movWDisp (disp : Word) (rm rd : Reg16)
  | movWPostInc (rm rd : Reg16)
  | movWAbs16 (aa : Word) (rd : Reg16)
  | movWToInd (rs rm : Reg16)
  | movWToDisp (rs : Reg16) (disp : Word) (rm : Reg16)
  | movWPreDec (rs rm : Reg16)
  | movWToAbs16 (rs : Reg16) (aa : Word)
  | pop (rd : Reg16)
  | push (rs : Reg16)
  -- Arithmetic (R164 to R180)
  | addBImm (imm : Byte) (rd : Reg8)
  | addBReg (rs rd : Reg8)
  | addW (rs rd : Reg16)
  | addxImm (imm : Byte) (rd : Reg8)
  | addxReg (rs rd : Reg8)
  | subxImm (imm : Byte) (rd : Reg8)
  | subxReg (rs rd : Reg8)
  | subB (rs rd : Reg8)
  | subW (rs rd : Reg16)
  | inc (rd : Reg8)
  | dec (rd : Reg8)
  | adds1 (rd : Reg16)
  | adds2 (rd : Reg16)
  | subs1 (rd : Reg16)
  | subs2 (rd : Reg16)
  | cmpBImm (imm : Byte) (rd : Reg8)
  | cmpBReg (rs rd : Reg8)
  | cmpW (rs rd : Reg16)
  | daa (rd : Reg8)
  | das (rd : Reg8)
  | mulxu (rs : Reg8) (rd : Reg16)
  | divxu (rs : Reg8) (rd : Reg16)
  | neg (rd : Reg8)
  -- Logic (R201 to R204)
  | andImm (imm : Byte) (rd : Reg8)
  | andReg (rs rd : Reg8)
  | orImm (imm : Byte) (rd : Reg8)
  | orReg (rs rd : Reg8)
  | xorImm (imm : Byte) (rd : Reg8)
  | xorReg (rs rd : Reg8)
  | notB (rd : Reg8)
  -- Shift and rotate (R211 to R218)
  | shal (rd : Reg8)
  | shar (rd : Reg8)
  | shll (rd : Reg8)
  | shlr (rd : Reg8)
  | rotl (rd : Reg8)
  | rotr (rd : Reg8)
  | rotxl (rd : Reg8)
  | rotxr (rd : Reg8)
  -- Bit manipulation, bit number immediate or in a register (R234 to R237)
  | bsetImmReg (bn : BitVec 3) (rd : Reg8)
  | bsetImmInd (bn : BitVec 3) (rm : Reg16)
  | bsetImmAbs (bn : BitVec 3) (aa : Byte)
  | bsetRegReg (rn rd : Reg8)
  | bsetRegInd (rn : Reg8) (rm : Reg16)
  | bsetRegAbs (rn : Reg8) (aa : Byte)
  | bclrImmReg (bn : BitVec 3) (rd : Reg8)
  | bclrImmInd (bn : BitVec 3) (rm : Reg16)
  | bclrImmAbs (bn : BitVec 3) (aa : Byte)
  | bclrRegReg (rn rd : Reg8)
  | bclrRegInd (rn : Reg8) (rm : Reg16)
  | bclrRegAbs (rn : Reg8) (aa : Byte)
  | bnotImmReg (bn : BitVec 3) (rd : Reg8)
  | bnotImmInd (bn : BitVec 3) (rm : Reg16)
  | bnotImmAbs (bn : BitVec 3) (aa : Byte)
  | bnotRegReg (rn rd : Reg8)
  | bnotRegInd (rn : Reg8) (rm : Reg16)
  | bnotRegAbs (rn : Reg8) (aa : Byte)
  | btstImmReg (bn : BitVec 3) (rd : Reg8)
  | btstImmInd (bn : BitVec 3) (rm : Reg16)
  | btstImmAbs (bn : BitVec 3) (aa : Byte)
  | btstRegReg (rn rd : Reg8)
  | btstRegInd (rn : Reg8) (rm : Reg16)
  | btstRegAbs (rn : Reg8) (aa : Byte)
  -- Bit manipulation with the carry flag (R238 to R247)
  | bandReg (bn : BitVec 3) (rd : Reg8)
  | bandInd (bn : BitVec 3) (rm : Reg16)
  | bandAbs (bn : BitVec 3) (aa : Byte)
  | biandReg (bn : BitVec 3) (rd : Reg8)
  | biandInd (bn : BitVec 3) (rm : Reg16)
  | biandAbs (bn : BitVec 3) (aa : Byte)
  | borReg (bn : BitVec 3) (rd : Reg8)
  | borInd (bn : BitVec 3) (rm : Reg16)
  | borAbs (bn : BitVec 3) (aa : Byte)
  | biorReg (bn : BitVec 3) (rd : Reg8)
  | biorInd (bn : BitVec 3) (rm : Reg16)
  | biorAbs (bn : BitVec 3) (aa : Byte)
  | bxorReg (bn : BitVec 3) (rd : Reg8)
  | bxorInd (bn : BitVec 3) (rm : Reg16)
  | bxorAbs (bn : BitVec 3) (aa : Byte)
  | bixorReg (bn : BitVec 3) (rd : Reg8)
  | bixorInd (bn : BitVec 3) (rm : Reg16)
  | bixorAbs (bn : BitVec 3) (aa : Byte)
  | bldReg (bn : BitVec 3) (rd : Reg8)
  | bldInd (bn : BitVec 3) (rm : Reg16)
  | bldAbs (bn : BitVec 3) (aa : Byte)
  | bildReg (bn : BitVec 3) (rd : Reg8)
  | bildInd (bn : BitVec 3) (rm : Reg16)
  | bildAbs (bn : BitVec 3) (aa : Byte)
  | bstReg (bn : BitVec 3) (rd : Reg8)
  | bstInd (bn : BitVec 3) (rm : Reg16)
  | bstAbs (bn : BitVec 3) (aa : Byte)
  | bistReg (bn : BitVec 3) (rd : Reg8)
  | bistInd (bn : BitVec 3) (rm : Reg16)
  | bistAbs (bn : BitVec 3) (aa : Byte)
  -- Branching (R271 to R282)
  | bra (disp : Byte)
  | brn (disp : Byte)
  | bhi (disp : Byte)
  | bls (disp : Byte)
  | bcc (disp : Byte)
  | bcs (disp : Byte)
  | bne (disp : Byte)
  | beq (disp : Byte)
  | bvc (disp : Byte)
  | bvs (disp : Byte)
  | bpl (disp : Byte)
  | bmi (disp : Byte)
  | bge (disp : Byte)
  | blt (disp : Byte)
  | bgt (disp : Byte)
  | ble (disp : Byte)
  | jmpInd (rm : Reg16)
  | jmpAbs (aa : Word)
  | jmpMemInd (aa : Byte)
  | bsr (disp : Byte)
  | jsrInd (rm : Reg16)
  | jsrAbs (aa : Word)
  | jsrMemInd (aa : Byte)
  | rts
  -- System control (R300 to R308)
  | rte
  | sleep
  | ldcImm (imm : Byte)
  | ldcReg (rs : Reg8)
  | stc (rd : Reg8)
  | andc (imm : Byte)
  | orc (imm : Byte)
  | xorc (imm : Byte)
  | nop
  -- Block transfer (R320)
  | eepmov
deriving DecidableEq, Repr

end Sys2Proof
end

