-- ==== Sys2Proof/WellFormed.lean ====
section
/-! DEFINITION. Which terms of `Instr` are the canonical spelling of an instruction word. The operand types already
hold every field to its width, so one check is left: the words of `MOV.W @R7+, Rd` and `MOV.W Rs, @-R7` are spelled
`POP Rd` and `PUSH Rs` (R107, R143, R144; DESIGN CHOICE, log 15, safe). -/

namespace Sys2Proof

/-- `MOV.W @Rs+, Rd` is spelled so only when Rs is not R7 (else it is `POP Rd`, R143). -/
def Instr.postIncSpelling : Instr → Bool
  | .movWPostInc rm _ => rm != .r7
  | _ => true

/-- `MOV.W Rs, @-Rd` is spelled so only when Rd is not R7 (else it is `PUSH Rs`, R144). -/
def Instr.preDecSpelling : Instr → Bool
  | .movWPreDec _ rm => rm != .r7
  | _ => true

/-- The instruction is the canonical spelling of its word. -/
def Instr.wellFormed (i : Instr) : Bool :=
  i.postIncSpelling && i.preDecSpelling

end Sys2Proof
end

