-- ==== Sys2Proof/Decode.lean ====
section
/-! DEFINITION. Decoding bytes to instructions (R80 to R96) and, after it, the encoder written from the same tables.
Every opcode value is the spec's own general knowledge (G1 to G4; UNVERIFIED, log 16). Decoding is strict: a fixed bit
that is not as the tables have it is an undefined code (R96, D2; log 14). -/

namespace Sys2Proof

/-! ### Bit fields and byte order -/

/-- Bits 15:8 of a word. -/
def hi8 (w : Word) : Byte := w.extractLsb' 8 8

/-- Bits 7:0 of a word. -/
def lo8 (w : Word) : Byte := w.extractLsb' 0 8

/-- The word whose upper and lower bytes are given: `a ++ b` of R10. -/
def word (a b : Byte) : Word := a ++ b

/-- Bits 7:4 of a byte. -/
def hi4 (b : Byte) : BitVec 4 := b.extractLsb' 4 4

/-- Bits 3:0 of a byte. -/
def lo4 (b : Byte) : BitVec 4 := b.extractLsb' 0 4

/-- The byte whose upper and lower nibbles are given. -/
def byte (a b : BitVec 4) : Byte := a ++ b

/-- Bit 3 of a nibble: the bit that selects between two forms (R94). -/
def top (n : BitVec 4) : Bool := n.msb

/-- Bits 2:0 of a nibble: a 16-bit register or a bit number (R84, R87). -/
def low3 (n : BitVec 4) : BitVec 3 := n.extractLsb' 0 3

/-- The nibble with selector bit `t` and low three bits `x`. -/
def nib (t : Bool) (x : BitVec 3) : BitVec 4 := BitVec.ofBool t ++ x

/-- The 16-bit register with a 3-bit code (R84). -/
def Reg16.ofCode (c : BitVec 3) : Reg16 :=
  match c.toNat with
  | 0 => .r0
  | 1 => .r1
  | 2 => .r2
  | 3 => .r3
  | 4 => .r4
  | 5 => .r5
  | 6 => .r6
  | _ => .r7

/-- The 3-bit code of a 16-bit register (R84). -/
def Reg16.code : Reg16 → BitVec 3
  | .r0 => 0
  | .r1 => 1
  | .r2 => 2
  | .r3 => 3
  | .r4 => 4
  | .r5 => 5
  | .r6 => 6
  | .r7 => 7

/-- The 8-bit register with a 4-bit code: 0 to 7 name RnH, 8 to 15 name RnL (R84). -/
def Reg8.ofCode (c : BitVec 4) : Reg8 :=
  if top c then .lo (Reg16.ofCode (low3 c)) else .hi (Reg16.ofCode (low3 c))

/-- The 4-bit code of an 8-bit register (R84). -/
def Reg8.code : Reg8 → BitVec 4
  | .hi n => nib false n.code
  | .lo n => nib true n.code

/-- The 16-bit register in the low three bits of a nibble. -/
def reg16 (n : BitVec 4) : Reg16 := Reg16.ofCode (low3 n)

/-! ### Decoding -/

/-- Why bytes are no instruction (R95: undefined instruction codes). -/
inductive DecodeError
  /-- Fewer bytes than the instruction has. -/
  | truncated
  /-- A first byte marked `-` in the map of R93. -/
  | undefinedFirstByte (b0 : Byte)
  /-- A defined first byte with a second byte that no row has (R94, R96). -/
  | undefinedSecondByte (b0 b1 : Byte)
  /-- A first word of a 4-byte form with continuation bytes that no row has (R87, R94, R96). -/
  | undefinedSecondWord (b0 b1 b2 b3 : Byte)
deriving DecidableEq, Repr

/-- The first bytes that start no instruction (R95). -/
def undefinedFirst (b0 : Byte) : Bool :=
  b0 == 0x52 || b0 == 0x53 || b0 == 0x57 || b0 == 0x58 || b0 == 0x5C || b0 == 0x64 || b0 == 0x65 || b0 == 0x66 ||
    b0 == 0x78 || b0 == 0x7A

/-- The first bytes of the 4-byte instructions (R81). -/
def isLong (b0 : Byte) : Bool :=
  b0 == 0x5A || b0 == 0x5E || b0 == 0x6A || b0 == 0x6B || b0 == 0x6E || b0 == 0x6F || b0 == 0x79 || b0 == 0x7B ||
    b0 == 0x7C || b0 == 0x7D || b0 == 0x7E || b0 == 0x7F

/-- Row 0 of the first-byte map (R93), column `c`. -/
def decodeRow0 (c : BitVec 4) (b1 : Byte) : Option Instr :=
  match c.toNat with
  | 0x0 => if b1 = 0x00 then some .nop else none
  | 0x1 => if b1 = 0x80 then some .sleep else none
  | 0x2 => if hi4 b1 = 0x0 then some (.stc (Reg8.ofCode (lo4 b1))) else none
  | 0x3 => if hi4 b1 = 0x0 then some (.ldcReg (Reg8.ofCode (lo4 b1))) else none
  | 0x4 => some (.orc b1)
  | 0x5 => some (.xorc b1)
  | 0x6 => some (.andc b1)
  | 0x7 => some (.ldcImm b1)
  | 0x8 => some (.addBReg (Reg8.ofCode (hi4 b1)) (Reg8.ofCode (lo4 b1)))
  | 0x9 => if top (hi4 b1) || top (lo4 b1) then none else some (.addW (reg16 (hi4 b1)) (reg16 (lo4 b1)))
  | 0xA => if hi4 b1 = 0x0 then some (.inc (Reg8.ofCode (lo4 b1))) else none
  | 0xB => if top (lo4 b1) then none else if hi4 b1 = 0x0 then some (.adds1 (reg16 (lo4 b1))) else if hi4 b1 = 0x8 then some (.adds2 (reg16 (lo4 b1))) else none
  | 0xC => some (.movBReg (Reg8.ofCode (hi4 b1)) (Reg8.ofCode (lo4 b1)))
  | 0xD => if top (hi4 b1) || top (lo4 b1) then none else some (.movWReg (reg16 (hi4 b1)) (reg16 (lo4 b1)))
  | 0xE => some (.addxReg (Reg8.ofCode (hi4 b1)) (Reg8.ofCode (lo4 b1)))
  | 0xF => if hi4 b1 = 0x0 then some (.daa (Reg8.ofCode (lo4 b1))) else none
  | _ => none

/-- Row 1 of the first-byte map (R93), column `c`. -/
def decodeRow1 (c : BitVec 4) (b1 : Byte) : Option Instr :=
  match c.toNat with
  | 0x0 => if hi4 b1 = 0x0 then some (.shll (Reg8.ofCode (lo4 b1))) else if hi4 b1 = 0x8 then some (.shal (Reg8.ofCode (lo4 b1))) else none
  | 0x1 => if hi4 b1 = 0x0 then some (.shlr (Reg8.ofCode (lo4 b1))) else if hi4 b1 = 0x8 then some (.shar (Reg8.ofCode (lo4 b1))) else none
  | 0x2 => if hi4 b1 = 0x0 then some (.rotxl (Reg8.ofCode (lo4 b1))) else if hi4 b1 = 0x8 then some (.rotl (Reg8.ofCode (lo4 b1))) else none
  | 0x3 => if hi4 b1 = 0x0 then some (.rotxr (Reg8.ofCode (lo4 b1))) else if hi4 b1 = 0x8 then some (.rotr (Reg8.ofCode (lo4 b1))) else none
  | 0x4 => some (.orReg (Reg8.ofCode (hi4 b1)) (Reg8.ofCode (lo4 b1)))
  | 0x5 => some (.xorReg (Reg8.ofCode (hi4 b1)) (Reg8.ofCode (lo4 b1)))
  | 0x6 => some (.andReg (Reg8.ofCode (hi4 b1)) (Reg8.ofCode (lo4 b1)))
  | 0x7 => if hi4 b1 = 0x0 then some (.notB (Reg8.ofCode (lo4 b1))) else if hi4 b1 = 0x8 then some (.neg (Reg8.ofCode (lo4 b1))) else none
  | 0x8 => some (.subB (Reg8.ofCode (hi4 b1)) (Reg8.ofCode (lo4 b1)))
  | 0x9 => if top (hi4 b1) || top (lo4 b1) then none else some (.subW (reg16 (hi4 b1)) (reg16 (lo4 b1)))
  | 0xA => if hi4 b1 = 0x0 then some (.dec (Reg8.ofCode (lo4 b1))) else none
  | 0xB => if top (lo4 b1) then none else if hi4 b1 = 0x0 then some (.subs1 (reg16 (lo4 b1))) else if hi4 b1 = 0x8 then some (.subs2 (reg16 (lo4 b1))) else none
  | 0xC => some (.cmpBReg (Reg8.ofCode (hi4 b1)) (Reg8.ofCode (lo4 b1)))
  | 0xD => if top (hi4 b1) || top (lo4 b1) then none else some (.cmpW (reg16 (hi4 b1)) (reg16 (lo4 b1)))
  | 0xE => some (.subxReg (Reg8.ofCode (hi4 b1)) (Reg8.ofCode (lo4 b1)))
  | 0xF => if hi4 b1 = 0x0 then some (.das (Reg8.ofCode (lo4 b1))) else none
  | _ => none

/-- Row 4 of the first-byte map: Bcc, whose condition code is the column (R92). -/
def decodeRow4 (c : BitVec 4) (b1 : Byte) : Option Instr :=
  match c.toNat with
  | 0x0 => some (.bra b1)
  | 0x1 => some (.brn b1)
  | 0x2 => some (.bhi b1)
  | 0x3 => some (.bls b1)
  | 0x4 => some (.bcc b1)
  | 0x5 => some (.bcs b1)
  | 0x6 => some (.bne b1)
  | 0x7 => some (.beq b1)
  | 0x8 => some (.bvc b1)
  | 0x9 => some (.bvs b1)
  | 0xA => some (.bpl b1)
  | 0xB => some (.bmi b1)
  | 0xC => some (.bge b1)
  | 0xD => some (.blt b1)
  | 0xE => some (.bgt b1)
  | 0xF => some (.ble b1)
  | _ => none

/-- Row 5 of the first-byte map, the 2-byte forms (R86, R88, R89). -/
def decodeRow5 (c : BitVec 4) (b1 : Byte) : Option Instr :=
  match c.toNat with
  | 0x0 => if top (lo4 b1) then none else some (.mulxu (Reg8.ofCode (hi4 b1)) (reg16 (lo4 b1)))
  | 0x1 => if top (lo4 b1) then none else some (.divxu (Reg8.ofCode (hi4 b1)) (reg16 (lo4 b1)))
  | 0x4 => if b1 = 0x70 then some .rts else none
  | 0x5 => some (.bsr b1)
  | 0x6 => if b1 = 0x70 then some .rte else none
  | 0x9 => if top (hi4 b1) || lo4 b1 != 0x0 then none else some (.jmpInd (reg16 (hi4 b1)))
  | 0xB => some (.jmpMemInd b1)
  | 0xD => if top (hi4 b1) || lo4 b1 != 0x0 then none else some (.jsrInd (reg16 (hi4 b1)))
  | 0xF => some (.jsrMemInd b1)
  | _ => none

/-- Row 6 of the first-byte map, the 2-byte forms (R85, R87, R94). The `MOV.W` words with R7 as the
auto-modified address register are POP and PUSH (R107; log 15). -/
def decodeRow6 (c : BitVec 4) (b1 : Byte) : Option Instr :=
  match c.toNat with
  | 0x0 => some (.bsetRegReg (Reg8.ofCode (hi4 b1)) (Reg8.ofCode (lo4 b1)))
  | 0x1 => some (.bnotRegReg (Reg8.ofCode (hi4 b1)) (Reg8.ofCode (lo4 b1)))
  | 0x2 => some (.bclrRegReg (Reg8.ofCode (hi4 b1)) (Reg8.ofCode (lo4 b1)))
  | 0x3 => some (.btstRegReg (Reg8.ofCode (hi4 b1)) (Reg8.ofCode (lo4 b1)))
  | 0x7 => some (if top (hi4 b1) then .bistReg (low3 (hi4 b1)) (Reg8.ofCode (lo4 b1)) else .bstReg (low3 (hi4 b1)) (Reg8.ofCode (lo4 b1)))
  | 0x8 => some (if top (hi4 b1) then .movBToInd (Reg8.ofCode (lo4 b1)) (reg16 (hi4 b1)) else .movBInd (reg16 (hi4 b1)) (Reg8.ofCode (lo4 b1)))
  | 0x9 => if top (lo4 b1) then none else some (if top (hi4 b1) then .movWToInd (reg16 (lo4 b1)) (reg16 (hi4 b1)) else .movWInd (reg16 (hi4 b1)) (reg16 (lo4 b1)))
  | 0xC => some (if top (hi4 b1) then .movBPreDec (Reg8.ofCode (lo4 b1)) (reg16 (hi4 b1)) else .movBPostInc (reg16 (hi4 b1)) (Reg8.ofCode (lo4 b1)))
  | 0xD => if top (lo4 b1) then none
    else if reg16 (hi4 b1) = .r7 then some (if top (hi4 b1) then .push (reg16 (lo4 b1)) else .pop (reg16 (lo4 b1)))
    else some (if top (hi4 b1) then .movWPreDec (reg16 (lo4 b1)) (reg16 (hi4 b1)) else .movWPostInc (reg16 (hi4 b1)) (reg16 (lo4 b1)))
  | _ => none

/-- Row 7 of the first-byte map, the 2-byte forms (R87). -/
def decodeRow7 (c : BitVec 4) (b1 : Byte) : Option Instr :=
  match c.toNat with
  | 0x0 => if top (hi4 b1) then none else some (.bsetImmReg (low3 (hi4 b1)) (Reg8.ofCode (lo4 b1)))
  | 0x1 => if top (hi4 b1) then none else some (.bnotImmReg (low3 (hi4 b1)) (Reg8.ofCode (lo4 b1)))
  | 0x2 => if top (hi4 b1) then none else some (.bclrImmReg (low3 (hi4 b1)) (Reg8.ofCode (lo4 b1)))
  | 0x3 => if top (hi4 b1) then none else some (.btstImmReg (low3 (hi4 b1)) (Reg8.ofCode (lo4 b1)))
  | 0x4 => some (if top (hi4 b1) then .biorReg (low3 (hi4 b1)) (Reg8.ofCode (lo4 b1)) else .borReg (low3 (hi4 b1)) (Reg8.ofCode (lo4 b1)))
  | 0x5 => some (if top (hi4 b1) then .bixorReg (low3 (hi4 b1)) (Reg8.ofCode (lo4 b1)) else .bxorReg (low3 (hi4 b1)) (Reg8.ofCode (lo4 b1)))
  | 0x6 => some (if top (hi4 b1) then .biandReg (low3 (hi4 b1)) (Reg8.ofCode (lo4 b1)) else .bandReg (low3 (hi4 b1)) (Reg8.ofCode (lo4 b1)))
  | 0x7 => some (if top (hi4 b1) then .bildReg (low3 (hi4 b1)) (Reg8.ofCode (lo4 b1)) else .bldReg (low3 (hi4 b1)) (Reg8.ofCode (lo4 b1)))
  | _ => none

/-- A 2-byte pattern as an instruction: the map of R93, by the two nibbles of the first byte. -/
def decodeShort (b0 b1 : Byte) : Option Instr :=
  match (hi4 b0).toNat with
  | 0x0 => decodeRow0 (lo4 b0) b1
  | 0x1 => decodeRow1 (lo4 b0) b1
  | 0x2 => some (.movBAbs8 b1 (Reg8.ofCode (lo4 b0)))
  | 0x3 => some (.movBToAbs8 (Reg8.ofCode (lo4 b0)) b1)
  | 0x4 => decodeRow4 (lo4 b0) b1
  | 0x5 => decodeRow5 (lo4 b0) b1
  | 0x6 => decodeRow6 (lo4 b0) b1
  | 0x7 => decodeRow7 (lo4 b0) b1
  | 0x8 => some (.addBImm b1 (Reg8.ofCode (lo4 b0)))
  | 0x9 => some (.addxImm b1 (Reg8.ofCode (lo4 b0)))
  | 0xA => some (.cmpBImm b1 (Reg8.ofCode (lo4 b0)))
  | 0xB => some (.subxImm b1 (Reg8.ofCode (lo4 b0)))
  | 0xC => some (.orImm b1 (Reg8.ofCode (lo4 b0)))
  | 0xD => some (.xorImm b1 (Reg8.ofCode (lo4 b0)))
  | 0xE => some (.andImm b1 (Reg8.ofCode (lo4 b0)))
  | _ => some (.movBImm b1 (Reg8.ofCode (lo4 b0)))

/-- The second word of a bit instruction that only reads `@Rd` (first byte H'7C, R87). -/
def decodeBitReadInd (x : Reg16) (b2 b3 : Byte) : Option Instr :=
  if lo4 b3 != 0x0 then none
  else match b2.toNat with
  | 0x63 => some (.btstRegInd (Reg8.ofCode (hi4 b3)) x)
  | 0x73 => if top (hi4 b3) then none else some (.btstImmInd (low3 (hi4 b3)) x)
  | 0x74 => some (if top (hi4 b3) then .biorInd (low3 (hi4 b3)) x else .borInd (low3 (hi4 b3)) x)
  | 0x75 => some (if top (hi4 b3) then .bixorInd (low3 (hi4 b3)) x else .bxorInd (low3 (hi4 b3)) x)
  | 0x76 => some (if top (hi4 b3) then .biandInd (low3 (hi4 b3)) x else .bandInd (low3 (hi4 b3)) x)
  | 0x77 => some (if top (hi4 b3) then .bildInd (low3 (hi4 b3)) x else .bldInd (low3 (hi4 b3)) x)
  | _ => none

/-- The second word of a bit instruction that only reads `@aa:8` (first byte H'7E, R87). -/
def decodeBitReadAbs (x : Byte) (b2 b3 : Byte) : Option Instr :=
  if lo4 b3 != 0x0 then none
  else match b2.toNat with
  | 0x63 => some (.btstRegAbs (Reg8.ofCode (hi4 b3)) x)
  | 0x73 => if top (hi4 b3) then none else some (.btstImmAbs (low3 (hi4 b3)) x)
  | 0x74 => some (if top (hi4 b3) then .biorAbs (low3 (hi4 b3)) x else .borAbs (low3 (hi4 b3)) x)
  | 0x75 => some (if top (hi4 b3) then .bixorAbs (low3 (hi4 b3)) x else .bxorAbs (low3 (hi4 b3)) x)
  | 0x76 => some (if top (hi4 b3) then .biandAbs (low3 (hi4 b3)) x else .bandAbs (low3 (hi4 b3)) x)
  | 0x77 => some (if top (hi4 b3) then .bildAbs (low3 (hi4 b3)) x else .bldAbs (low3 (hi4 b3)) x)
  | _ => none

/-- The second word of a bit instruction that reads and writes `@Rd` (first byte H'7D, R87). -/
def decodeBitWriteInd (x : Reg16) (b2 b3 : Byte) : Option Instr :=
  if lo4 b3 != 0x0 then none
  else match b2.toNat with
  | 0x60 => some (.bsetRegInd (Reg8.ofCode (hi4 b3)) x)
  | 0x61 => some (.bnotRegInd (Reg8.ofCode (hi4 b3)) x)
  | 0x62 => some (.bclrRegInd (Reg8.ofCode (hi4 b3)) x)
  | 0x67 => some (if top (hi4 b3) then .bistInd (low3 (hi4 b3)) x else .bstInd (low3 (hi4 b3)) x)
  | 0x70 => if top (hi4 b3) then none else some (.bsetImmInd (low3 (hi4 b3)) x)
  | 0x71 => if top (hi4 b3) then none else some (.bnotImmInd (low3 (hi4 b3)) x)
  | 0x72 => if top (hi4 b3) then none else some (.bclrImmInd (low3 (hi4 b3)) x)
  | _ => none

/-- The second word of a bit instruction that reads and writes `@aa:8` (first byte H'7F, R87). -/
def decodeBitWriteAbs (x : Byte) (b2 b3 : Byte) : Option Instr :=
  if lo4 b3 != 0x0 then none
  else match b2.toNat with
  | 0x60 => some (.bsetRegAbs (Reg8.ofCode (hi4 b3)) x)
  | 0x61 => some (.bnotRegAbs (Reg8.ofCode (hi4 b3)) x)
  | 0x62 => some (.bclrRegAbs (Reg8.ofCode (hi4 b3)) x)
  | 0x67 => some (if top (hi4 b3) then .bistAbs (low3 (hi4 b3)) x else .bstAbs (low3 (hi4 b3)) x)
  | 0x70 => if top (hi4 b3) then none else some (.bsetImmAbs (low3 (hi4 b3)) x)
  | 0x71 => if top (hi4 b3) then none else some (.bnotImmAbs (low3 (hi4 b3)) x)
  | 0x72 => if top (hi4 b3) then none else some (.bclrImmAbs (low3 (hi4 b3)) x)
  | _ => none

/-- A 4-byte pattern as an instruction (R81, R85, R87 to R89). -/
def decodeLong (b0 b1 b2 b3 : Byte) : Option Instr :=
  match b0.toNat with
  | 0x5A => if b1 = 0x00 then some (.jmpAbs (word b2 b3)) else none
  | 0x5E => if b1 = 0x00 then some (.jsrAbs (word b2 b3)) else none
  | 0x6A =>
    if hi4 b1 = 0x0 then some (.movBAbs16 (word b2 b3) (Reg8.ofCode (lo4 b1)))
    else if hi4 b1 = 0x8 then some (.movBToAbs16 (Reg8.ofCode (lo4 b1)) (word b2 b3)) else none
  | 0x6B =>
    if top (lo4 b1) then none
    else if hi4 b1 = 0x0 then some (.movWAbs16 (word b2 b3) (reg16 (lo4 b1)))
    else if hi4 b1 = 0x8 then some (.movWToAbs16 (reg16 (lo4 b1)) (word b2 b3)) else none
  | 0x6E =>
    some (if top (hi4 b1) then .movBToDisp (Reg8.ofCode (lo4 b1)) (word b2 b3) (reg16 (hi4 b1))
      else .movBDisp (word b2 b3) (reg16 (hi4 b1)) (Reg8.ofCode (lo4 b1)))
  | 0x6F =>
    if top (lo4 b1) then none
    else some (if top (hi4 b1) then .movWToDisp (reg16 (lo4 b1)) (word b2 b3) (reg16 (hi4 b1))
      else .movWDisp (word b2 b3) (reg16 (hi4 b1)) (reg16 (lo4 b1)))
  | 0x79 => if top (lo4 b1) || hi4 b1 != 0x0 then none else some (.movWImm (word b2 b3) (reg16 (lo4 b1)))
  | 0x7B => if b1 = 0x5C ∧ b2 = 0x59 ∧ b3 = 0x8F then some .eepmov else none
  | 0x7C => if top (hi4 b1) || lo4 b1 != 0x0 then none else decodeBitReadInd (reg16 (hi4 b1)) b2 b3
  | 0x7D => if top (hi4 b1) || lo4 b1 != 0x0 then none else decodeBitWriteInd (reg16 (hi4 b1)) b2 b3
  | 0x7E => decodeBitReadAbs b1 b2 b3
  | 0x7F => decodeBitWriteAbs b1 b2 b3
  | _ => none

/-- The instruction at the start of a list of bytes, with the bytes after it (R80, R81); total, and every pattern that
matches no row is rejected by name (R95). -/
def decode (bytes : List Byte) : Except DecodeError (Instr × List Byte) :=
  match bytes with
  | b0 :: b1 :: rest =>
    if undefinedFirst b0 then .error (.undefinedFirstByte b0)
    else if isLong b0 then
      match rest with
      | b2 :: b3 :: rest' =>
        match decodeLong b0 b1 b2 b3 with
        | some i => .ok (i, rest')
        | none => .error (.undefinedSecondWord b0 b1 b2 b3)
      | _ => .error .truncated
    else
      match decodeShort b0 b1 with
      | some i => .ok (i, rest)
      | none => .error (.undefinedSecondByte b0 b1)
  | _ => .error .truncated

/-! ### Encoding -/

/-- The byte `ssss dddd` of two 8-bit registers. -/
def byte88 (r x : Reg8) : Byte := byte r.code x.code

/-- The byte `0sss 0ddd` of two 16-bit registers. -/
def byte1616 (r x : Reg16) : Byte := byte (nib false r.code) (nib false x.code)

/-- The second word `op 0bbb 0000` or `op 1bbb 0000` of a memory bit form with an immediate bit number. -/
def immWord (op : Byte) (inv : Bool) (bn : BitVec 3) : List Byte := [op, byte (nib inv bn) 0x0]

/-- The first word `op 0mmm 0000` of a form with operand `@Rm`. -/
def indWord (op : Byte) (rm : Reg16) : List Byte := [op, byte (nib false rm.code) 0x0]

/-- The bytes of an instruction, from the encodings of R85 to R89. -/
def encode (i : Instr) : List Byte :=
  match i with
  | .movBReg rs rd => [0x0C, byte88 rs rd]
  | .movBImm imm rd => [byte 0xF rd.code, imm]
  | .movBInd rm rd => [0x68, byte (nib false rm.code) rd.code]
  | .movBDisp disp rm rd => [0x6E, byte (nib false rm.code) rd.code, hi8 disp, lo8 disp]
  | .movBPostInc rm rd => [0x6C, byte (nib false rm.code) rd.code]
  | .movBAbs8 aa rd => [byte 0x2 rd.code, aa]
  | .movBAbs16 aa rd => [0x6A, byte 0x0 rd.code, hi8 aa, lo8 aa]
  | .movBToInd rs rm => [0x68, byte (nib true rm.code) rs.code]
  | .movBToDisp rs disp rm => [0x6E, byte (nib true rm.code) rs.code, hi8 disp, lo8 disp]
  | .movBPreDec rs rm => [0x6C, byte (nib true rm.code) rs.code]
  | .movBToAbs8 rs aa => [byte 0x3 rs.code, aa]
  | .movBToAbs16 rs aa => [0x6A, byte 0x8 rs.code, hi8 aa, lo8 aa]
  | .movWReg rs rd => [0x0D, byte1616 rs rd]
  | .movWImm imm rd => [0x79, byte 0x0 (nib false rd.code), hi8 imm, lo8 imm]
  | .movWInd rm rd => [0x69, byte (nib false rm.code) (nib false rd.code)]
  | .movWDisp disp rm rd => [0x6F, byte (nib false rm.code) (nib false rd.code), hi8 disp, lo8 disp]
  | .movWPostInc rm rd => [0x6D, byte (nib false rm.code) (nib false rd.code)]
  | .movWAbs16 aa rd => [0x6B, byte 0x0 (nib false rd.code), hi8 aa, lo8 aa]
  | .movWToInd rs rm => [0x69, byte (nib true rm.code) (nib false rs.code)]
  | .movWToDisp rs disp rm => [0x6F, byte (nib true rm.code) (nib false rs.code), hi8 disp, lo8 disp]
  | .movWPreDec rs rm => [0x6D, byte (nib true rm.code) (nib false rs.code)]
  | .movWToAbs16 rs aa => [0x6B, byte 0x8 (nib false rs.code), hi8 aa, lo8 aa]
  | .pop rd => [0x6D, byte 0x7 (nib false rd.code)]
  | .push rs => [0x6D, byte 0xF (nib false rs.code)]
  | .addBImm imm rd => [byte 0x8 rd.code, imm]
  | .addBReg rs rd => [0x08, byte88 rs rd]
  | .addW rs rd => [0x09, byte1616 rs rd]
  | .addxImm imm rd => [byte 0x9 rd.code, imm]
  | .addxReg rs rd => [0x0E, byte88 rs rd]
  | .subxImm imm rd => [byte 0xB rd.code, imm]
  | .subxReg rs rd => [0x1E, byte88 rs rd]
  | .subB rs rd => [0x18, byte88 rs rd]
  | .subW rs rd => [0x19, byte1616 rs rd]
  | .inc rd => [0x0A, byte 0x0 rd.code]
  | .dec rd => [0x1A, byte 0x0 rd.code]
  | .adds1 rd => [0x0B, byte 0x0 (nib false rd.code)]
  | .adds2 rd => [0x0B, byte 0x8 (nib false rd.code)]
  | .subs1 rd => [0x1B, byte 0x0 (nib false rd.code)]
  | .subs2 rd => [0x1B, byte 0x8 (nib false rd.code)]
  | .cmpBImm imm rd => [byte 0xA rd.code, imm]
  | .cmpBReg rs rd => [0x1C, byte88 rs rd]
  | .cmpW rs rd => [0x1D, byte1616 rs rd]
  | .daa rd => [0x0F, byte 0x0 rd.code]
  | .das rd => [0x1F, byte 0x0 rd.code]
  | .mulxu rs rd => [0x50, byte rs.code (nib false rd.code)]
  | .divxu rs rd => [0x51, byte rs.code (nib false rd.code)]
  | .neg rd => [0x17, byte 0x8 rd.code]
  | .andImm imm rd => [byte 0xE rd.code, imm]
  | .andReg rs rd => [0x16, byte88 rs rd]
  | .orImm imm rd => [byte 0xC rd.code, imm]
  | .orReg rs rd => [0x14, byte88 rs rd]
  | .xorImm imm rd => [byte 0xD rd.code, imm]
  | .xorReg rs rd => [0x15, byte88 rs rd]
  | .notB rd => [0x17, byte 0x0 rd.code]
  | .shal rd => [0x10, byte 0x8 rd.code]
  | .shar rd => [0x11, byte 0x8 rd.code]
  | .shll rd => [0x10, byte 0x0 rd.code]
  | .shlr rd => [0x11, byte 0x0 rd.code]
  | .rotl rd => [0x12, byte 0x8 rd.code]
  | .rotr rd => [0x13, byte 0x8 rd.code]
  | .rotxl rd => [0x12, byte 0x0 rd.code]
  | .rotxr rd => [0x13, byte 0x0 rd.code]
  | .bsetImmReg bn rd => [0x70, byte (nib false bn) rd.code]
  | .bsetImmInd bn rm => indWord 0x7D rm ++ immWord 0x70 false bn
  | .bsetImmAbs bn aa => [0x7F, aa] ++ immWord 0x70 false bn
  | .bsetRegReg rn rd => [0x60, byte88 rn rd]
  | .bsetRegInd rn rm => indWord 0x7D rm ++ [0x60, byte rn.code 0x0]
  | .bsetRegAbs rn aa => [0x7F, aa] ++ [0x60, byte rn.code 0x0]
  | .bclrImmReg bn rd => [0x72, byte (nib false bn) rd.code]
  | .bclrImmInd bn rm => indWord 0x7D rm ++ immWord 0x72 false bn
  | .bclrImmAbs bn aa => [0x7F, aa] ++ immWord 0x72 false bn
  | .bclrRegReg rn rd => [0x62, byte88 rn rd]
  | .bclrRegInd rn rm => indWord 0x7D rm ++ [0x62, byte rn.code 0x0]
  | .bclrRegAbs rn aa => [0x7F, aa] ++ [0x62, byte rn.code 0x0]
  | .bnotImmReg bn rd => [0x71, byte (nib false bn) rd.code]
  | .bnotImmInd bn rm => indWord 0x7D rm ++ immWord 0x71 false bn
  | .bnotImmAbs bn aa => [0x7F, aa] ++ immWord 0x71 false bn
  | .bnotRegReg rn rd => [0x61, byte88 rn rd]
  | .bnotRegInd rn rm => indWord 0x7D rm ++ [0x61, byte rn.code 0x0]
  | .bnotRegAbs rn aa => [0x7F, aa] ++ [0x61, byte rn.code 0x0]
  | .btstImmReg bn rd => [0x73, byte (nib false bn) rd.code]
  | .btstImmInd bn rm => indWord 0x7C rm ++ immWord 0x73 false bn
  | .btstImmAbs bn aa => [0x7E, aa] ++ immWord 0x73 false bn
  | .btstRegReg rn rd => [0x63, byte88 rn rd]
  | .btstRegInd rn rm => indWord 0x7C rm ++ [0x63, byte rn.code 0x0]
  | .btstRegAbs rn aa => [0x7E, aa] ++ [0x63, byte rn.code 0x0]
  | .bandReg bn rd => [0x76, byte (nib false bn) rd.code]
  | .bandInd bn rm => indWord 0x7C rm ++ immWord 0x76 false bn
  | .bandAbs bn aa => [0x7E, aa] ++ immWord 0x76 false bn
  | .biandReg bn rd => [0x76, byte (nib true bn) rd.code]
  | .biandInd bn rm => indWord 0x7C rm ++ immWord 0x76 true bn
  | .biandAbs bn aa => [0x7E, aa] ++ immWord 0x76 true bn
  | .borReg bn rd => [0x74, byte (nib false bn) rd.code]
  | .borInd bn rm => indWord 0x7C rm ++ immWord 0x74 false bn
  | .borAbs bn aa => [0x7E, aa] ++ immWord 0x74 false bn
  | .biorReg bn rd => [0x74, byte (nib true bn) rd.code]
  | .biorInd bn rm => indWord 0x7C rm ++ immWord 0x74 true bn
  | .biorAbs bn aa => [0x7E, aa] ++ immWord 0x74 true bn
  | .bxorReg bn rd => [0x75, byte (nib false bn) rd.code]
  | .bxorInd bn rm => indWord 0x7C rm ++ immWord 0x75 false bn
  | .bxorAbs bn aa => [0x7E, aa] ++ immWord 0x75 false bn
  | .bixorReg bn rd => [0x75, byte (nib true bn) rd.code]
  | .bixorInd bn rm => indWord 0x7C rm ++ immWord 0x75 true bn
  | .bixorAbs bn aa => [0x7E, aa] ++ immWord 0x75 true bn
  | .bldReg bn rd => [0x77, byte (nib false bn) rd.code]
  | .bldInd bn rm => indWord 0x7C rm ++ immWord 0x77 false bn
  | .bldAbs bn aa => [0x7E, aa] ++ immWord 0x77 false bn
  | .bildReg bn rd => [0x77, byte (nib true bn) rd.code]
  | .bildInd bn rm => indWord 0x7C rm ++ immWord 0x77 true bn
  | .bildAbs bn aa => [0x7E, aa] ++ immWord 0x77 true bn
  | .bstReg bn rd => [0x67, byte (nib false bn) rd.code]
  | .bstInd bn rm => indWord 0x7D rm ++ immWord 0x67 false bn
  | .bstAbs bn aa => [0x7F, aa] ++ immWord 0x67 false bn
  | .bistReg bn rd => [0x67, byte (nib true bn) rd.code]
  | .bistInd bn rm => indWord 0x7D rm ++ immWord 0x67 true bn
  | .bistAbs bn aa => [0x7F, aa] ++ immWord 0x67 true bn
  | .bra disp => [0x40, disp]
  | .brn disp => [0x41, disp]
  | .bhi disp => [0x42, disp]
  | .bls disp => [0x43, disp]
  | .bcc disp => [0x44, disp]
  | .bcs disp => [0x45, disp]
  | .bne disp => [0x46, disp]
  | .beq disp => [0x47, disp]
  | .bvc disp => [0x48, disp]
  | .bvs disp => [0x49, disp]
  | .bpl disp => [0x4A, disp]
  | .bmi disp => [0x4B, disp]
  | .bge disp => [0x4C, disp]
  | .blt disp => [0x4D, disp]
  | .bgt disp => [0x4E, disp]
  | .ble disp => [0x4F, disp]
  | .jmpInd rm => indWord 0x59 rm
  | .jmpAbs aa => [0x5A, 0x00, hi8 aa, lo8 aa]
  | .jmpMemInd aa => [0x5B, aa]
  | .bsr disp => [0x55, disp]
  | .jsrInd rm => indWord 0x5D rm
  | .jsrAbs aa => [0x5E, 0x00, hi8 aa, lo8 aa]
  | .jsrMemInd aa => [0x5F, aa]
  | .rts => [0x54, 0x70]
  | .rte => [0x56, 0x70]
  | .sleep => [0x01, 0x80]
  | .ldcImm imm => [0x07, imm]
  | .ldcReg rs => [0x03, byte 0x0 rs.code]
  | .stc rd => [0x02, byte 0x0 rd.code]
  | .andc imm => [0x06, imm]
  | .orc imm => [0x04, imm]
  | .xorc imm => [0x05, imm]
  | .nop => [0x00, 0x00]
  | .eepmov => [0x7B, 0x5C, 0x59, 0x8F]

/-! ### The opcode table's numbering -/

/-- The first and the second word of an instruction of `nbits` bits numbered as spec/opcode_table.json numbers them: a
2-byte row is its one word; a 4-byte row is one big-endian number, the first word in bits 31:16 (R83). -/
def tableWords (nbits w : Nat) : Word × Word :=
  if nbits ≤ 16 then (BitVec.ofNat 16 w, 0#16) else (BitVec.ofNat 16 (w / 65536), BitVec.ofNat 16 w)

/-- The four bytes of two words, the first word at the lowest address, each big-endian (R54, R80). -/
def wordBytes (p : Word × Word) : List Byte := [hi8 p.1, lo8 p.1, hi8 p.2, lo8 p.2]

/-- What the decoder reads from two words, when it takes up just the bits the table gives the row. -/
def decodeExactly (nbits : Nat) (p : Word × Word) : Option Instr :=
  match decode (wordBytes p) with
  | .ok (i, rest) => if 8 * (4 - rest.length) = (if nbits ≤ 16 then 16 else 32) then some i else none
  | .error _ => none

/-- The two words in the order to store them: as the table numbers them (R83); a 4-byte number that is no 4-byte
instruction in that reading is read with the first word in bits 15:0 instead (DESIGN CHOICE, log 34, safe). -/
def tableCode (nbits w : Nat) : Word × Word :=
  if nbits ≤ 16 then tableWords nbits w
  else match decodeExactly nbits (tableWords nbits w) with
    | some _ => tableWords nbits w
    | none =>
      match decodeExactly nbits ((tableWords nbits w).2, (tableWords nbits w).1) with
      | some _ => ((tableWords nbits w).2, (tableWords nbits w).1)
      | none => tableWords nbits w

/-- The instruction the decoder reads from the bits `w` of a row of spec/opcode_table.json. -/
def decodeTableWord (nbits w : Nat) : Option Instr :=
  decodeExactly nbits (tableCode nbits w)

end Sys2Proof
end

