-- ==== Sys2Proof/Machine/State.lean ====
section
/-! DEFINITION. The state of the machine as plain data (10_state.md), the reasons a step can stop, and the state right
after reset. -/

namespace Sys2Proof.Machine

/-- The eight 16-bit general registers, each the pair RnH, RnL (R20, R21). -/
structure RegFile where
  r0 : Word
  r1 : Word
  r2 : Word
  r3 : Word
  r4 : Word
  r5 : Word
  r6 : Word
  r7 : Word
deriving DecidableEq, Repr

/-- The CPU operation states that need a stored value (R330); exception handling is one indivisible step. -/
inductive Mode
  /-- The CPU executes instructions one after another. -/
  | programExecution
  /-- The reset input is active; the CPU does nothing. -/
  | resetState
  /-- Entered by SLEEP; no instruction executes (R301). -/
  | powerDown
deriving DecidableEq, Repr

/-- What the environment does with the reset input at one instruction boundary (R330, R376; log 24). -/
inductive ResetInput
  /-- No reset is requested. -/
  | inactive
  /-- A reset is requested and the input released again: the reset entry runs in this step (R334, R376). -/
  | request
  /-- The input is active and stays so: the CPU is in its reset state (R330). -/
  | hold
deriving DecidableEq, Repr

/-- What the environment presents at one instruction boundary (R336, R337, R387; log 22, 23). -/
structure Boundary where
  reset : ResetInput
  /-- `IntCtl.pending(env)`: the ids of the sources that request an interrupt here. -/
  requests : List Nat
  /-- Which of the two successors R337 allows: accept now, or execute one more instruction (D11). -/
  accept : Bool
deriving DecidableEq, Repr

/-- A boundary at which nothing is asked of the CPU. -/
def Boundary.quiet : Boundary where
  reset := .inactive
  requests := []
  accept := false

/-- What the CPU tells the environment (R64, R336; log 40). -/
inductive EnvEvent
  /-- The device at `a` was read and answered `v`. -/
  | deviceRead (a : Word) (v : Byte)
  /-- The byte `v` was handed to the device at `a`. -/
  | deviceWrite (a : Word) (v : Byte)
  /-- `IntCtl.accepted(s)` for the source with this id (R338). -/
  | accepted (id : Nat)
deriving DecidableEq, Repr

/-- The whole state: the registers of R20, R27 and R31, the operation state of R330, memory (R50), the parameters of
R9, and the environment's inputs and outputs (R387). -/
structure State where
  regs : RegFile
  /-- Between instructions, the address of the next instruction (R29); bit 0 is always 0 (R28). -/
  pc : Word
  /-- I, U, H, U, N, Z, V, C from bit 7 to bit 0 (R31). -/
  ccr : Byte
  mode : Mode
  /-- This boundary is the one right after the reset entry, which accepts no interrupt (R337). -/
  holdOff : Bool
  /-- The bytes of memory that something has put there, addresses strictly rising (log 7). -/
  mem : List Host.Cell
  /-- MemMap, ResetVector, IntCtl and WakeSet (R9): no step changes them. -/
  chip : Chip
  /-- What the environment presents at the coming boundaries; after the last, `Boundary.quiet` for ever. -/
  inputs : List Boundary
  /-- What device registers will answer to the coming reads; after the last, free values (R64; log 10). -/
  deviceIn : List Byte
  /-- What the environment has been told, newest first. -/
  envLog : List EnvEvent
  /-- How many free values have been drawn (the model's own field, log 8). -/
  draws : Nat
deriving DecidableEq, Repr

/-- Why a run can end in an error the hardware itself reports: there is no such reason. The CPU has no synchronous
exception and no address, bus or divide error (R331). Nothing raises one. Safe (log 33). -/
inductive Fault
deriving DecidableEq, Repr

/-- The situations the spec gives no behaviour, `Undefined(reason)` of R11. -/
inductive Refusal
  /-- Raised by an arm of `exec` whose instruction has no meaning yet; no arm raises it. Safe. -/
  | notModelled (mnemonic : String)
  /-- Raised by the step when the bytes at PC match no row of the opcode table (R95, R96, D1, D2). Safe: the
  hardware executes something undocumented. -/
  | undefinedCode (e : DecodeError)
  /-- Raised by `MOV.B @R7+, Rd` and `MOV.B Rs, @-R7` (R146, D20). Safe: the manual forbids the form and gives it no
  effect. -/
  | byteAutoModifySP
  /-- Raised by a load with post-increment into (half of) its own address register (R145 b, D21). Safe: the spec
  gives the pair of writes no result. -/
  | postIncrementOwnRegister
  /-- Raised by an instruction that stores into the four bytes at the next instruction (R71, D9). Safe: whether the
  fetched instruction sees the store is not fixed. -/
  | storeIntoPrefetched
  /-- Raised by a word access, data or fetch, to a byte-only region (R61, D23). Safe: the consequence is the chip's. -/
  | wordAccessByteOnly
deriving DecidableEq, Repr

/-- The machine right after reset (R38, R370) with nothing in memory, on a chip with the defaults of R9 and in a quiet
environment. CCR.I = 1, the operation state and the untouched memory are the spec's; the registers, CCR bits 6..0 and
PC have values the log names (DESIGN CHOICE, unsafe: log 2, 3, 4). -/
def State.reset : State where
  regs :=
    { r0 := 0x0000#16, r1 := 0x0000#16, r2 := 0x0000#16, r3 := 0x0000#16, r4 := 0x0000#16, r5 := 0x0000#16,
      r6 := 0x0000#16, r7 := 0x0000#16 }
  pc := 0x0000#16
  ccr := 0x80#8
  mode := .programExecution
  holdOff := true
  mem := []
  chip := Chip.default
  inputs := []
  deviceIn := []
  envLog := []
  draws := 0

end Sys2Proof.Machine
end

