-- ==== Sys2Proof/Machine/Flags.lean ====
section
/-! DEFINITION. The condition code register bit by bit (R31, R32), the flag groups instructions write (R35, R36), and
the arithmetic that computes flags (R160 to R163, R211 to R218, R176, R177). -/

namespace Sys2Proof.Machine

/-! ### The bits of CCR (R31) -/

/-- Interrupt mask bit. -/
def CCR.i (c : Byte) : Bool := c.getLsbD 7

/-- User bit 6. -/
def CCR.u6 (c : Byte) : Bool := c.getLsbD 6

/-- Half-carry flag. -/
def CCR.h (c : Byte) : Bool := c.getLsbD 5

/-- User bit 4. -/
def CCR.u4 (c : Byte) : Bool := c.getLsbD 4

/-- Negative flag. -/
def CCR.n (c : Byte) : Bool := c.getLsbD 3

/-- Zero flag. -/
def CCR.z (c : Byte) : Bool := c.getLsbD 2

/-- Overflow flag. -/
def CCR.v (c : Byte) : Bool := c.getLsbD 1

/-- Carry flag. -/
def CCR.c (c : Byte) : Bool := c.getLsbD 0

/-- The register whose bits 7 to 0 are given. -/
def CCR.pack (i u6 h u4 n z v c : Bool) : Byte :=
  BitVec.ofBool i ++ BitVec.ofBool u6 ++ BitVec.ofBool h ++ BitVec.ofBool u4 ++ BitVec.ofBool n ++ BitVec.ofBool z ++
    BitVec.ofBool v ++ BitVec.ofBool c

/-! ### The groups of flags that instructions write (R35) -/

/-- H, N, Z, V and C written; I and the user bits kept: ADD, SUB, CMP, NEG, ADDX, SUBX. -/
def CCR.setHNZVC (r : Byte) (h n z v c : Bool) : Byte :=
  CCR.pack (CCR.i r) (CCR.u6 r) h (CCR.u4 r) n z v c

/-- N, Z, V and C written: shifts and rotates. -/
def CCR.setNZVC (r : Byte) (n z v c : Bool) : Byte :=
  CCR.pack (CCR.i r) (CCR.u6 r) (CCR.h r) (CCR.u4 r) n z v c

/-- N, Z and V written: MOV, logic, INC, DEC. -/
def CCR.setNZV (r : Byte) (n z v : Bool) : Byte :=
  CCR.pack (CCR.i r) (CCR.u6 r) (CCR.h r) (CCR.u4 r) n z v (CCR.c r)

/-- N and Z written: DIVXU. -/
def CCR.setNZ (r : Byte) (n z : Bool) : Byte :=
  CCR.pack (CCR.i r) (CCR.u6 r) (CCR.h r) (CCR.u4 r) n z (CCR.v r) (CCR.c r)

/-- Z alone written: BTST. -/
def CCR.setZ (r : Byte) (z : Bool) : Byte :=
  CCR.pack (CCR.i r) (CCR.u6 r) (CCR.h r) (CCR.u4 r) (CCR.n r) z (CCR.v r) (CCR.c r)

/-- C alone written: BAND to BILD. -/
def CCR.setC (r : Byte) (c : Bool) : Byte :=
  CCR.pack (CCR.i r) (CCR.u6 r) (CCR.h r) (CCR.u4 r) (CCR.n r) (CCR.z r) (CCR.v r) c

/-- I alone written: interrupt entry (R338). -/
def CCR.setI (r : Byte) (i : Bool) : Byte :=
  CCR.pack i (CCR.u6 r) (CCR.h r) (CCR.u4 r) (CCR.n r) (CCR.z r) (CCR.v r) (CCR.c r)

/-- `NZ8(r)` or `NZ16(r)` with V cleared (R36, R120, R200). -/
def CCR.moved {w : Nat} (r : Byte) (v : BitVec w) : Byte :=
  CCR.setNZV r v.msb (v == 0) false

/-! ### Arithmetic (R160 to R163) -/

/-- What an addition or subtraction computes: the result and its five flags. -/
structure Alu (w : Nat) where
  value : BitVec w
  h : Bool
  n : Bool
  z : Bool
  v : Bool
  c : Bool
deriving DecidableEq, Repr

/-- The signed reading of the true result does not fit `w` bits (R160). -/
def signedOverflow (w : Nat) (t : Int) : Bool :=
  decide (t < -(2 : Int) ^ (w - 1)) || decide ((2 : Int) ^ (w - 1) ≤ t)

/-- `a + b + cin` at width `w`, half-carry out of the low `half` bits (R161, R163). -/
def addAlu (half : Nat) {w : Nat} (a b : BitVec w) (cin : Bool) : Alu w :=
  let r := BitVec.ofNat w (a.toNat + b.toNat + cin.toNat)
  { value := r
    h := decide (2 ^ half ≤ a.toNat % 2 ^ half + b.toNat % 2 ^ half + cin.toNat)
    n := r.msb
    z := r == 0
    v := signedOverflow w (a.toInt + b.toInt + cin.toNat)
    c := decide (2 ^ w ≤ a.toNat + b.toNat + cin.toNat) }

/-- `a - b - bin` at width `w`, half-carry a borrow of the low `half` bits (R162, R163). -/
def subAlu (half : Nat) {w : Nat} (a b : BitVec w) (bin : Bool) : Alu w :=
  let r := BitVec.ofInt w ((a.toNat : Int) - b.toNat - bin.toNat)
  { value := r
    h := decide (a.toNat % 2 ^ half < b.toNat % 2 ^ half + bin.toNat)
    n := r.msb
    z := r == 0
    v := signedOverflow w (a.toInt - b.toInt - bin.toNat)
    c := decide (a.toNat < b.toNat + bin.toNat) }

/-- `add8` of R161. -/
def add8 (a b : Byte) (cin : Bool) : Alu 8 := addAlu 4 a b cin

/-- `sub8` of R162. -/
def sub8 (a b : Byte) (bin : Bool) : Alu 8 := subAlu 4 a b bin

/-- `add16` of R163. -/
def add16 (a b : Word) : Alu 16 := addAlu 12 a b false

/-- `sub16` of R163. -/
def sub16 (a b : Word) : Alu 16 := subAlu 12 a b false

/-- All five flags of a result (R164, R165, R168, R169, R174, R175, R180). -/
def CCR.arith {w : Nat} (r : Byte) (x : Alu w) : Byte :=
  CCR.setHNZVC r x.h x.n x.z x.v x.c

/-- As `CCR.arith`, but Z is only ever cleared (R166, R167). -/
def CCR.extended {w : Nat} (r : Byte) (x : Alu w) : Byte :=
  CCR.setHNZVC r x.h x.n (CCR.z r && x.z) x.v x.c

/-! ### Shifts and rotates (R210 to R218) -/

/-- What a shift by one position computes. -/
structure Shifted where
  value : Byte
  v : Bool
  c : Bool
deriving DecidableEq, Repr

/-- One position toward bit 7; `fill` enters at bit 0, bit 7 leaves to C (R211, R213, R215, R217). -/
def shiftLeft (a : Byte) (fill v : Bool) : Shifted :=
  { value := (a <<< 1) ||| (BitVec.ofBool fill).setWidth 8, v := v, c := a.getLsbD 7 }

/-- One position toward bit 0; `fill` enters at bit 7, bit 0 leaves to C, V is cleared (R212, R214, R216, R218). -/
def shiftRight (a : Byte) (fill : Bool) : Shifted :=
  { value := (a >>> 1) ||| ((BitVec.ofBool fill).setWidth 8 <<< 7), v := false, c := a.getLsbD 0 }

/-- `NZ8` of the result with the shift's V and C. -/
def CCR.shifted (r : Byte) (x : Shifted) : Byte :=
  CCR.setNZVC r x.value.msb (x.value == 0) x.v x.c

/-! ### Decimal adjustment (R176, R177) -/

/-- The row of DAA's table for C, H, the upper and the lower digit: the adjustment and C after. -/
def daaRow (c h : Bool) (u l : Nat) : Option (Byte × Bool) :=
  match c, h with
  | false, false =>
    if l ≤ 9 then (if u ≤ 9 then some (0x00, false) else some (0x60, true))
    else (if u ≤ 8 then some (0x06, false) else some (0x66, true))
  | false, true =>
    if l ≤ 3 then (if u ≤ 9 then some (0x06, false) else some (0x66, true)) else none
  | true, false =>
    if u ≤ 2 then (if l ≤ 9 then some (0x60, true) else some (0x66, true)) else none
  | true, true =>
    if u ≤ 3 ∧ l ≤ 3 then some (0x66, true) else none

/-- The row of DAS's table for C, H, the upper and the lower digit: the adjustment (C does not change). -/
def dasRow (c h : Bool) (u l : Nat) : Option Byte :=
  match c, h with
  | false, false => if u ≤ 9 ∧ l ≤ 9 then some 0x00 else none
  | false, true => if u ≤ 8 ∧ 6 ≤ l then some 0xFA else none
  | true, false => if 7 ≤ u ∧ l ≤ 9 then some 0xA0 else none
  | true, true => if 6 ≤ u ∧ 6 ≤ l then some 0x9A else none

/-! ### Branch conditions (R271) -/

/-- `C ∨ Z`: low or same. -/
def CCR.lowOrSame (r : Byte) : Bool := CCR.c r || CCR.z r

/-- `N ⊕ V`: less than. -/
def CCR.lessThan (r : Byte) : Bool := CCR.n r ^^ CCR.v r

/-- `Z ∨ (N ⊕ V)`: less or equal. -/
def CCR.lessOrEqual (r : Byte) : Bool := CCR.z r || (CCR.n r ^^ CCR.v r)

end Sys2Proof.Machine
end

