-- ==== Sys2Proof/Machine/Ops.lean ====
section
/-! DEFINITION. The named operations over registers, memory, the stack and the free values, and the entries of the two
exceptions (reset, interrupt) with the return from one. An operation that the spec can call `Undefined` answers in
`Except Refusal`. -/

namespace Sys2Proof.Machine

/-! ### General registers (R20, R21) -/

/-- The 16-bit register `n`. -/
def RegFile.get (f : RegFile) (n : Reg16) : Word :=
  match n with
  | .r0 => f.r0
  | .r1 => f.r1
  | .r2 => f.r2
  | .r3 => f.r3
  | .r4 => f.r4
  | .r5 => f.r5
  | .r6 => f.r6
  | .r7 => f.r7

/-- The registers with `v` in the 16-bit register `n`. -/
def RegFile.set (f : RegFile) (n : Reg16) (v : Word) : RegFile :=
  match n with
  | .r0 => { f with r0 := v }
  | .r1 => { f with r1 := v }
  | .r2 => { f with r2 := v }
  | .r3 => { f with r3 := v }
  | .r4 => { f with r4 := v }
  | .r5 => { f with r5 := v }
  | .r6 => { f with r6 := v }
  | .r7 => { f with r7 := v }

/-- `x[n]` of R11. -/
def State.reg (s : State) (n : Reg16) : Word := s.regs.get n

/-- `x[n] <- v` of R11. -/
def State.setReg (s : State) (n : Reg16) (v : Word) : State := { s with regs := s.regs.set n v }

/-- `xb[r]` of R11: the named half of the pair (R21). -/
def State.regB (s : State) (r : Reg8) : Byte :=
  match r with
  | .hi n => hi8 (s.reg n)
  | .lo n => lo8 (s.reg n)

/-- `xb[r] <- v` of R11: the other byte of the pair is unchanged (R21). -/
def State.setRegB (s : State) (r : Reg8) (v : Byte) : State :=
  match r with
  | .hi n => s.setReg n (word v (lo8 (s.reg n)))
  | .lo n => s.setReg n (word (hi8 (s.reg n)) v)

/-! ### PC, CCR and the operation state -/

/-- `pc <- t`: bit 0 is always stored as 0 (R28, D3). -/
def State.setPc (s : State) (t : Word) : State := { s with pc := t &&& 0xFFFE#16 }

/-- `CCR <- c`. -/
def State.setCcr (s : State) (c : Byte) : State := { s with ccr := c }

/-- `state <- m` (R330). -/
def State.setMode (s : State) (m : Mode) : State := { s with mode := m }

/-- `next` of R11 for an instruction of `len` bytes; it wraps modulo 2^16 (R30). -/
def State.nextPc (s : State) (len : Word) : Word := s.pc + len

/-- `pc <- next`: how an instruction that is no taken control transfer ends (R29). -/
def State.advance (s : State) (len : Word) : State := s.setPc (s.nextPc len)

/-- `sext_16` of R10. -/
def sext16 (d : Byte) : Word := d.signExtend 16

/-! ### Free values (R11) -/

/-- `any(w)`: a value nothing fixes, a fresh one at every draw (log 8). -/
def State.draw (s : State) (w : Nat) : BitVec w × State :=
  (Config.anyBits w s.draws, { s with draws := s.draws + 1 })

/-! ### The contents of memory -/

/-- The byte listed at an address. -/
def Memory.lookup (m : List Host.Cell) (a : Nat) : Option Byte :=
  match m with
  | [] => none
  | (k, v) :: rest => if k = a then some v else Memory.lookup rest a

/-- The list with `v` at address `a`, in rising order of addresses. -/
def Memory.write (m : List Host.Cell) (a : Nat) (v : Byte) : List Host.Cell :=
  match m with
  | [] => [(a, v)]
  | (k, w) :: rest =>
    if a < k then (a, v) :: (k, w) :: rest
    else if k = a then (a, v) :: rest
    else (k, w) :: Memory.write rest a v

/-- The addresses are rising, at least `lo`, and inside the 64-Kbyte space (R50). -/
def Memory.risingFrom (lo : Nat) (m : List Host.Cell) : Bool :=
  match m with
  | [] => true
  | (k, _) :: rest => decide (lo ≤ k) && decide (k < 65536) && Memory.risingFrom (k + 1) rest

/-- The canonical form: addresses strictly rising and inside the address space. An unlisted address holds no byte
anything has put there, so no listed byte equals what an unlisted one holds (log 7). -/
def Memory.wf (m : List Host.Cell) : Bool := Memory.risingFrom 0 m

/-- What the storage behind address `a` holds: the byte listed there, and where nothing has put one the free value of
that address (R374, U14; log 6). -/
def Memory.byteAt (m : List Host.Cell) (a : Word) : Byte :=
  match Memory.lookup m a.toNat with
  | some v => v
  | none => Config.powerOnByte a.toNat

/-- The model's read of one byte of storage, with no side effect. -/
def State.peek (s : State) (a : Word) : Byte := Memory.byteAt s.mem a

/-- `v` put into storage at `a`. -/
def State.poke (s : State) (a : Word) (v : Byte) : State := { s with mem := Memory.write s.mem a.toNat v }

/-! ### The memory map (R9, R52) -/

/-- The address lies in the region. -/
def Region.covers (r : Region) (a : Nat) : Bool := decide (r.base ≤ a) && decide (a < r.base + r.size)

/-- The first region of the map that holds an address. -/
def Chip.regionAt (c : Chip) (a : Word) : Option Region := c.memMap.find? (fun r => r.covers a.toNat)

/-- The kind of an address; RAM where no region says otherwise (R9's default). -/
def Chip.kindAt (c : Chip) (a : Word) : RegionKind :=
  match c.regionAt a with
  | some r => r.kind
  | none => .ram

/-- "access in word size is not possible" at this address (R61). -/
def Chip.byteOnlyAt (c : Chip) (a : Word) : Bool :=
  match c.regionAt a with
  | some r => r.byteOnly
  | none => false

/-- The even address a word access at `a` is performed from (R57, D5). -/
def evenAddr (a : Word) : Word := a &&& 0xFFFE#16

/-- Word access is possible at the two bytes of the word that `a` designates (R57, R61). -/
def Chip.wordOk (c : Chip) (a : Word) : Bool := !c.byteOnlyAt (evenAddr a) && !c.byteOnlyAt (evenAddr a + 1#16)

/-- A write to this address has an effect: RAM stores it, a device is handed it; ROM and unmapped addresses drop it
(R64, D7). -/
def Chip.takesWrite (c : Chip) (a : Word) : Bool :=
  match c.kindAt a with
  | .ram => true
  | .device => true
  | .rom => false
  | .unmapped => false

/-! ### Reads (R55, R64) -/

/-- A read of the device register at `a`: the environment's next answer, or a free value when it has listed none
(R64; log 10). -/
def State.readDevice (s : State) (a : Word) : Byte × State :=
  match s.deviceIn with
  | v :: rest => (v, { s with deviceIn := rest, envLog := .deviceRead a v :: s.envLog })
  | [] =>
    match s.draw 8 with
    | (v, s1) => (v, { s1 with envLog := .deviceRead a v :: s1.envLog })

/-- `MemRead(a, 1)`: memory, a device's answer, or `any(8)` where nothing is mapped (R55, R64). -/
def State.loadByte (s : State) (a : Word) : Byte × State :=
  match s.chip.kindAt a with
  | .ram => (s.peek a, s)
  | .rom => (s.peek a, s)
  | .device => s.readDevice a
  | .unmapped => s.draw 8

/-- `MemRead(a, 2)`: bit 0 of the address is ignored, the upper byte is at the even address and is read first
(R55, R57, D8). -/
def State.loadWord (s : State) (a : Word) : Except Refusal (Word × State) :=
  if s.chip.wordOk a then
    match s.loadByte (evenAddr a) with
    | (hi, s1) =>
      match s1.loadByte (evenAddr a + 1#16) with
      | (lo, s2) => .ok (word hi lo, s2)
  else .error .wordAccessByteOnly

/-! ### Writes (R56, R64, R71) -/

/-- `MemWrite(a, 1, v)` (R56, R64): no fault, and no effect where writes are dropped. -/
def State.putByte (s : State) (a : Word) (v : Byte) : State :=
  match s.chip.kindAt a with
  | .ram => s.poke a v
  | .rom => s
  | .device => { s with envLog := .deviceWrite a v :: s.envLog }
  | .unmapped => s

/-- `MemWrite(a, 2, v)` (R56, R57): upper byte at the even address, lower byte after it. -/
def State.putWord (s : State) (a : Word) (v : Word) : Except Refusal State :=
  if s.chip.wordOk a then .ok ((s.putByte (evenAddr a) (hi8 v)).putByte (evenAddr a + 1#16) (lo8 v))
  else .error .wordAccessByteOnly

/-- The address is one of the four bytes starting at `next` (R71, D9). -/
def inPrefetch (next a : Word) : Bool := decide ((a - next).toNat < 4)

/-- A write at `a` that has an effect falls into the prefetched instruction (log 13). `guard` is `next` for a store of
an instruction, and nothing for the writes of an exception entry, which D9 does not name. -/
def State.hitsPrefetch (s : State) (guard : Option Word) (a : Word) : Bool :=
  match guard with
  | some next => inPrefetch next a && s.chip.takesWrite a
  | none => false

/-- A byte store, refused when it changes the prefetched instruction (R71). -/
def State.storeByte (s : State) (guard : Option Word) (a : Word) (v : Byte) : Except Refusal State :=
  if s.hitsPrefetch guard a then .error .storeIntoPrefetched else .ok (s.putByte a v)

/-- A word store, refused when one of its bytes changes the prefetched instruction (R71). -/
def State.storeWord (s : State) (guard : Option Word) (a v : Word) : Except Refusal State :=
  if s.hitsPrefetch guard (evenAddr a) || s.hitsPrefetch guard (evenAddr a + 1#16) then .error .storeIntoPrefetched
  else s.putWord a v

/-! ### The stack (R62) -/

/-- `Push16(v)`: SP is decreased by 2, then the word is written where SP points. -/
def State.push16 (s : State) (guard : Option Word) (v : Word) : Except Refusal State :=
  (s.setReg .r7 (s.reg .r7 - 2#16)).storeWord guard (s.reg .r7 - 2#16) v

/-- `Pop16()`: the word where SP points is read, then SP is increased by 2. -/
def State.pop16 (s : State) : Except Refusal (Word × State) :=
  match s.loadWord (s.reg .r7) with
  | .ok (v, s1) => .ok (v, s1.setReg .r7 (s1.reg .r7 + 2#16))
  | .error r => .error r

/-! ### Exceptions (R332, R334, R338, R300) -/

/-- The pc from a vector table entry, bit 0 dropped (R333, R343). -/
def State.jumpThroughVector (s : State) (vector : Word) : Except Refusal State :=
  match s.loadWord vector with
  | .ok (t, s1) => .ok ((s1.setPc t).setMode .programExecution)
  | .error r => .error r

/-- The eight general registers as a reset leaves them: `any(16)` each (R334). -/
def State.scrambleRegs (s : State) : State :=
  { s with
    regs :=
      { r0 := Config.anyBits 16 s.draws, r1 := Config.anyBits 16 (s.draws + 1), r2 := Config.anyBits 16 (s.draws + 2),
        r3 := Config.anyBits 16 (s.draws + 3), r4 := Config.anyBits 16 (s.draws + 4),
        r5 := Config.anyBits 16 (s.draws + 5), r6 := Config.anyBits 16 (s.draws + 6),
        r7 := Config.anyBits 16 (s.draws + 7) }
    draws := s.draws + 8 }

/-- `CCR.I <- 1; CCR[6:0] <- any(7)` (R334). -/
def State.scrambleCcr (s : State) : State :=
  { s with ccr := CCR.setI ((Config.anyBits 7 s.draws).setWidth 8) true, draws := s.draws + 1 }

/-- `raise Reset` (R334): nothing is pushed and no memory is written; the boundary after it accepts no interrupt
(R337). -/
def State.takeReset (s : State) : Except Refusal State :=
  match s.scrambleCcr.scrambleRegs.jumpThroughVector s.chip.resetVector with
  | .ok s1 => .ok { s1 with holdOff := true }
  | .error r => .error r

/-- The frame of an interrupt entry: PC, then CCR in the upper byte of a word whose lower byte, "CCR*", is `any(8)`
(R338, R339, D13). -/
def State.pushFrame (s : State) : Except Refusal State :=
  match s.push16 none s.pc with
  | .ok s1 =>
    match s1.draw 8 with
    | (star, s2) => s2.push16 none (word s2.ccr star)
  | .error r => .error r

/-- `raise Interrupt(s)` (R338): the frame is pushed, I is set, PC is loaded from the source's vector and the
environment is told. -/
def State.takeInterrupt (s : State) (src : IntSource) : Except Refusal State :=
  match s.pushFrame with
  | .ok s1 =>
    match (s1.setCcr (CCR.setI s1.ccr true)).jumpThroughVector src.vector with
    | .ok s2 => .ok { s2 with envLog := .accepted src.id :: s2.envLog }
    | .error r => .error r
  | .error r => .error r

/-- Return from an exception (R300, R342): CCR from the upper byte of the first word popped, PC from the second. -/
def State.returnFromException (s : State) : Except Refusal State :=
  match s.pop16 with
  | .ok (w, s1) =>
    match (s1.setCcr (hi8 w)).pop16 with
    | .ok (t, s2) => .ok (s2.setPc t)
    | .error r => .error r
  | .error r => .error r

/-- How an operation that may be `Undefined` ends a step. -/
def outcome (r : Except Refusal State) : Host.Outcome State Fault Refusal :=
  match r with
  | .ok s => .next s
  | .error e => .refused e

end Sys2Proof.Machine
end

