-- ==== Sys2Proof/Machine/Operands.lean ====
section
/-! DEFINITION. The operand forms: effective addresses (R98 to R105), the byte operand of a bit instruction (R230 to
R233) and the branch target (R104). -/

namespace Sys2Proof.Machine

/-- `@Rn`: the contents of the address register (R99). -/
def State.eaInd (s : State) (m : Reg16) : Word := s.reg m

/-- `@(d:16, Rn)`: the sum modulo 2^16 (R100). -/
def State.eaDisp (s : State) (disp : Word) (m : Reg16) : Word := s.reg m + disp

/-- `@aa:8` as a data address: H'FF00 to H'FFFF (R101). -/
def eaAbs8 (aa : Byte) : Word := word 0xFF#8 aa

/-- The address of the pointer word of `@@aa:8`: H'0000 to H'00FF (R105). -/
def eaMemInd (aa : Byte) : Word := word 0x00#8 aa

/-- `@(d:8, PC)`: relative to the next instruction (R104); both Bcc and BSR are 2 bytes long. -/
def State.branchTarget (s : State) (disp : Byte) : Word := s.nextPc 2 + sext16 disp

/-- The place of the byte operand of a bit instruction (R230). -/
inductive BytePlace
  | reg (r : Reg8)
  | mem (ea : Word)
deriving DecidableEq, Repr

/-- `BitRead()` (R232): exactly one byte read when the operand is in memory. -/
def State.readPlace (s : State) (p : BytePlace) : Byte × State :=
  match p with
  | .reg r => (s.regB r, s)
  | .mem ea => s.loadByte ea

/-- `BitWrite(w)` (R233): always performed, to the place that was read (D29). -/
def State.writePlace (s : State) (next : Word) (p : BytePlace) (v : Byte) : Except Refusal State :=
  match p with
  | .reg r => .ok (s.setRegB r v)
  | .mem ea => s.storeByte (some next) ea v

/-- The bit number a register gives: its low three bits (R231). -/
def State.bitNumber (s : State) (rn : Reg8) : BitVec 3 := (s.regB rn).extractLsb' 0 3

/-- `v[bn]`. -/
def bitOf (v : Byte) (bn : BitVec 3) : Bool := v.getLsbD bn.toNat

/-- `1 << bn`. -/
def bitMask (bn : BitVec 3) : Byte := 0x01#8 <<< bn.toNat

end Sys2Proof.Machine
end

