-- ==== Sys2Proof/Machine/Arithmetic.lean ====
section
/-! DEFINITION. The arithmetic instructions (41_arithmetic.md). None accesses memory or raises an exception. -/

namespace Sys2Proof.Machine

/-! ### Shared forms -/

/-- A byte result written with all five flags. -/
def State.arithB (s : State) (x : Alu 8) (rd : Reg8) : State :=
  ((s.setRegB rd x.value).setCcr (CCR.arith s.ccr x)).advance 2

/-- A word result written with all five flags. -/
def State.arithW (s : State) (x : Alu 16) (rd : Reg16) : State :=
  ((s.setReg rd x.value).setCcr (CCR.arith s.ccr x)).advance 2

/-- A byte result written with all five flags, Z only ever cleared (R166, R167). -/
def State.extendB (s : State) (x : Alu 8) (rd : Reg8) : State :=
  ((s.setRegB rd x.value).setCcr (CCR.extended s.ccr x)).advance 2

/-- The flags of a result that is discarded (R174, R175). -/
def State.compare {w : Nat} (s : State) (x : Alu w) : State :=
  (s.setCcr (CCR.arith s.ccr x)).advance 2

/-- A byte counted by one: N and Z of the result, V as given, H and C kept (R170, R171). -/
def State.countB (s : State) (r : Byte) (v : Bool) (rd : Reg8) : State :=
  ((s.setRegB rd r).setCcr (CCR.setNZV s.ccr r.msb (r == 0) v)).advance 2

/-- A word register changed without flags (R172, R173). -/
def State.adjustW (s : State) (r : Word) (rd : Reg16) : State := (s.setReg rd r).advance 2

/-- A decimal result `r` with carry `c`: N and Z from `r`, H and V undefined, `any(1)` each (R176, R177, D19). -/
def State.decimalB (s : State) (r : Byte) (c : Bool) (rd : Reg8) : State :=
  match s.draw 1 with
  | (h, s1) =>
    match s1.draw 1 with
    | (v, s2) => ((s2.setRegB rd r).setCcr (CCR.setHNZVC s2.ccr h.msb r.msb (r == 0) v.msb c)).advance 2

/-! ### ADD, ADDX, SUB, SUBX (R164 to R169) -/

/-- `ADD.B #xx:8, Rd` (R164). -/
def execAddBImm (imm : Byte) (rd : Reg8) (s : State) : Host.Outcome State Fault Refusal :=
  .next (s.arithB (add8 (s.regB rd) imm false) rd)

/-- `ADD.B Rs, Rd` (R164). -/
def execAddBReg (rs rd : Reg8) (s : State) : Host.Outcome State Fault Refusal :=
  .next (s.arithB (add8 (s.regB rd) (s.regB rs) false) rd)

/-- `ADD.W Rs, Rd` (R165). -/
def execAddW (rs rd : Reg16) (s : State) : Host.Outcome State Fault Refusal :=
  .next (s.arithW (add16 (s.reg rd) (s.reg rs)) rd)

/-- `ADDX #xx:8, Rd` (R166). -/
def execAddxImm (imm : Byte) (rd : Reg8) (s : State) : Host.Outcome State Fault Refusal :=
  .next (s.extendB (add8 (s.regB rd) imm (CCR.c s.ccr)) rd)

/-- `ADDX Rs, Rd` (R166). -/
def execAddxReg (rs rd : Reg8) (s : State) : Host.Outcome State Fault Refusal :=
  .next (s.extendB (add8 (s.regB rd) (s.regB rs) (CCR.c s.ccr)) rd)

/-- `SUBX #xx:8, Rd` (R167). -/
def execSubxImm (imm : Byte) (rd : Reg8) (s : State) : Host.Outcome State Fault Refusal :=
  .next (s.extendB (sub8 (s.regB rd) imm (CCR.c s.ccr)) rd)

/-- `SUBX Rs, Rd` (R167). -/
def execSubxReg (rs rd : Reg8) (s : State) : Host.Outcome State Fault Refusal :=
  .next (s.extendB (sub8 (s.regB rd) (s.regB rs) (CCR.c s.ccr)) rd)

/-- `SUB.B Rs, Rd` (R168). -/
def execSubB (rs rd : Reg8) (s : State) : Host.Outcome State Fault Refusal :=
  .next (s.arithB (sub8 (s.regB rd) (s.regB rs) false) rd)

/-- `SUB.W Rs, Rd` (R169). -/
def execSubW (rs rd : Reg16) (s : State) : Host.Outcome State Fault Refusal :=
  .next (s.arithW (sub16 (s.reg rd) (s.reg rs)) rd)

/-! ### INC, DEC, ADDS, SUBS (R170 to R173) -/

/-- `INC Rd` (R170). -/
def execInc (rd : Reg8) (s : State) : Host.Outcome State Fault Refusal :=
  .next (s.countB (s.regB rd + 1#8) (s.regB rd == 0x7F) rd)

/-- `DEC Rd` (R171). -/
def execDec (rd : Reg8) (s : State) : Host.Outcome State Fault Refusal :=
  .next (s.countB (s.regB rd - 1#8) (s.regB rd == 0x80) rd)

/-- `ADDS #1, Rd` (R172). -/
def execAdds1 (rd : Reg16) (s : State) : Host.Outcome State Fault Refusal :=
  .next (s.adjustW (s.reg rd + 1#16) rd)

/-- `ADDS #2, Rd` (R172). -/
def execAdds2 (rd : Reg16) (s : State) : Host.Outcome State Fault Refusal :=
  .next (s.adjustW (s.reg rd + 2#16) rd)

/-- `SUBS #1, Rd` (R173). -/
def execSubs1 (rd : Reg16) (s : State) : Host.Outcome State Fault Refusal :=
  .next (s.adjustW (s.reg rd - 1#16) rd)

/-- `SUBS #2, Rd` (R173). -/
def execSubs2 (rd : Reg16) (s : State) : Host.Outcome State Fault Refusal :=
  .next (s.adjustW (s.reg rd - 2#16) rd)

/-! ### CMP, NEG (R174, R175, R180) -/

/-- `CMP.B #xx:8, Rd` (R174). -/
def execCmpBImm (imm : Byte) (rd : Reg8) (s : State) : Host.Outcome State Fault Refusal :=
  .next (s.compare (sub8 (s.regB rd) imm false))

/-- `CMP.B Rs, Rd` (R174). -/
def execCmpBReg (rs rd : Reg8) (s : State) : Host.Outcome State Fault Refusal :=
  .next (s.compare (sub8 (s.regB rd) (s.regB rs) false))

/-- `CMP.W Rs, Rd` (R175). -/
def execCmpW (rs rd : Reg16) (s : State) : Host.Outcome State Fault Refusal :=
  .next (s.compare (sub16 (s.reg rd) (s.reg rs)))

/-- `NEG Rd` (R180). -/
def execNeg (rd : Reg8) (s : State) : Host.Outcome State Fault Refusal :=
  .next (s.arithB (sub8 0x00#8 (s.regB rd) false) rd)

/-! ### DAA, DAS (R176, R177) -/

/-- `DAA Rd` (R176); where no row of the table matches, the result and C are free values (D19). -/
def execDaa (rd : Reg8) (s : State) : Host.Outcome State Fault Refusal :=
  match daaRow (CCR.c s.ccr) (CCR.h s.ccr) (hi4 (s.regB rd)).toNat (lo4 (s.regB rd)).toNat with
  | some (adj, c) => .next (s.decimalB (s.regB rd + adj) c rd)
  | none =>
    match s.draw 8 with
    | (r, s1) =>
      match s1.draw 1 with
      | (c, s2) => .next (s2.decimalB r c.msb rd)

/-- `DAS Rd` (R177); where no row of the table matches, the result is a free value (D19); C is never changed. -/
def execDas (rd : Reg8) (s : State) : Host.Outcome State Fault Refusal :=
  match dasRow (CCR.c s.ccr) (CCR.h s.ccr) (hi4 (s.regB rd)).toNat (lo4 (s.regB rd)).toNat with
  | some adj => .next (s.decimalB (s.regB rd + adj) (CCR.c s.ccr) rd)
  | none =>
    match s.draw 8 with
    | (r, s1) => .next (s1.decimalB r (CCR.c s.ccr) rd)

/-! ### MULXU, DIVXU (R178, R179) -/

/-- `MULXU Rs, Rd` (R178): the multiplicand is RdL, the product fills Rd. -/
def execMulxu (rs : Reg8) (rd : Reg16) (s : State) : Host.Outcome State Fault Refusal :=
  .next ((s.setReg rd (BitVec.ofNat 16 ((lo8 (s.reg rd)).toNat * (s.regB rs).toNat))).advance 2)

/-- What DIVXU leaves in Rd: remainder over quotient, or `any(16)` for divisor 0 or a quotient over H'FF (R179, D18). -/
def State.divide (s : State) (n : Word) (v : Byte) : Word × State :=
  if v ≠ 0 ∧ n.toNat / v.toNat ≤ 0xFF then
    (word (BitVec.ofNat 8 (n.toNat % v.toNat)) (BitVec.ofNat 8 (n.toNat / v.toNat)), s)
  else s.draw 16

/-- `DIVXU Rs, Rd` (R179): N and Z tell of the divisor, in every case. -/
def execDivxu (rs : Reg8) (rd : Reg16) (s : State) : Host.Outcome State Fault Refusal :=
  match s.divide (s.reg rd) (s.regB rs) with
  | (r, s1) => .next (((s1.setReg rd r).setCcr (CCR.setNZ s.ccr (s.regB rs).msb (s.regB rs == 0))).advance 2)

end Sys2Proof.Machine
end

