-- ==== Sys2Proof/Machine/BitManipulation.lean ====
section
/-! DEFINITION. The bit manipulation instructions (44_bit_manipulation.md): an operation on one bit of the operand
byte, or of C, over the places of R230. The register forms are 2 bytes long, the memory forms 4. -/

namespace Sys2Proof.Machine

/-! ### Shared forms -/

/-- `v = BitRead(); BitWrite(f v)`: BSET, BCLR, BNOT, BST, BIST (R65, R232, R233). -/
def modifyBit (s : State) (len : Word) (p : BytePlace) (f : Byte → Byte) : Host.Outcome State Fault Refusal :=
  match s.readPlace p with
  | (v, s1) =>
    match s1.writePlace (s.nextPc len) p (f v) with
    | .ok s2 => .next (s2.advance len)
    | .error r => .refused r

/-- `v = BitRead()`, then the flag register becomes `f v` of it; nothing is written (R65). -/
def testBit (s : State) (len : Word) (p : BytePlace) (f : Byte → Byte → Byte) : Host.Outcome State Fault Refusal :=
  match s.readPlace p with
  | (v, s1) => .next ((s1.setCcr (f v s1.ccr)).advance len)

/-- `v | (1 << bn)` (R234). -/
def setBit (bn : BitVec 3) (v : Byte) : Byte := v ||| bitMask bn

/-- `v & ~(1 << bn)` (R235). -/
def clearBit (bn : BitVec 3) (v : Byte) : Byte := v &&& ~~~bitMask bn

/-- `v ^ (1 << bn)` (R236). -/
def invertBit (bn : BitVec 3) (v : Byte) : Byte := v ^^^ bitMask bn

/-- The byte with bit `bn` replaced by `b` (R246, R247). -/
def putBit (bn : BitVec 3) (b : Bool) (v : Byte) : Byte := if b then setBit bn v else clearBit bn v

/-- `CCR.Z <- ~v[bn]` (R237). -/
def zeroFromBit (bn : BitVec 3) (v ccr : Byte) : Byte := CCR.setZ ccr (!bitOf v bn)

/-- `CCR.C <- CCR.C & v[bn]` (R238). -/
def andBit (bn : BitVec 3) (v ccr : Byte) : Byte := CCR.setC ccr (CCR.c ccr && bitOf v bn)

/-- `CCR.C <- CCR.C & ~v[bn]` (R239). -/
def andNotBit (bn : BitVec 3) (v ccr : Byte) : Byte := CCR.setC ccr (CCR.c ccr && !bitOf v bn)

/-- `CCR.C <- CCR.C | v[bn]` (R240). -/
def orBit (bn : BitVec 3) (v ccr : Byte) : Byte := CCR.setC ccr (CCR.c ccr || bitOf v bn)

/-- `CCR.C <- CCR.C | ~v[bn]` (R241). -/
def orNotBit (bn : BitVec 3) (v ccr : Byte) : Byte := CCR.setC ccr (CCR.c ccr || !bitOf v bn)

/-- `CCR.C <- CCR.C ^ v[bn]` (R242). -/
def xorBit (bn : BitVec 3) (v ccr : Byte) : Byte := CCR.setC ccr (CCR.c ccr ^^ bitOf v bn)

/-- `CCR.C <- CCR.C ^ ~v[bn]` (R243). -/
def xorNotBit (bn : BitVec 3) (v ccr : Byte) : Byte := CCR.setC ccr (CCR.c ccr ^^ !bitOf v bn)

/-- `CCR.C <- v[bn]` (R244). -/
def loadBit (bn : BitVec 3) (v ccr : Byte) : Byte := CCR.setC ccr (bitOf v bn)

/-- `CCR.C <- ~v[bn]` (R245). -/
def loadNotBit (bn : BitVec 3) (v ccr : Byte) : Byte := CCR.setC ccr (!bitOf v bn)

/-! ### BSET (R234) -/

/-- `BSET #xx:3, Rd` (R234). -/
def execBsetImmReg (bn : BitVec 3) (rd : Reg8) (s : State) : Host.Outcome State Fault Refusal :=
  modifyBit s 2 (.reg rd) (setBit bn)

/-- `BSET #xx:3, @Rd` (R234). -/
def execBsetImmInd (bn : BitVec 3) (rm : Reg16) (s : State) : Host.Outcome State Fault Refusal :=
  modifyBit s 4 (.mem (s.eaInd rm)) (setBit bn)

/-- `BSET #xx:3, @aa:8` (R234). -/
def execBsetImmAbs (bn : BitVec 3) (aa : Byte) (s : State) : Host.Outcome State Fault Refusal :=
  modifyBit s 4 (.mem (eaAbs8 aa)) (setBit bn)

/-- `BSET Rn, Rd` (R234). -/
def execBsetRegReg (rn rd : Reg8) (s : State) : Host.Outcome State Fault Refusal :=
  modifyBit s 2 (.reg rd) (setBit (s.bitNumber rn))

/-- `BSET Rn, @Rd` (R234). -/
def execBsetRegInd (rn : Reg8) (rm : Reg16) (s : State) : Host.Outcome State Fault Refusal :=
  modifyBit s 4 (.mem (s.eaInd rm)) (setBit (s.bitNumber rn))

/-- `BSET Rn, @aa:8` (R234). -/
def execBsetRegAbs (rn : Reg8) (aa : Byte) (s : State) : Host.Outcome State Fault Refusal :=
  modifyBit s 4 (.mem (eaAbs8 aa)) (setBit (s.bitNumber rn))

/-! ### BCLR (R235) -/

/-- `BCLR #xx:3, Rd` (R235). -/
def execBclrImmReg (bn : BitVec 3) (rd : Reg8) (s : State) : Host.Outcome State Fault Refusal :=
  modifyBit s 2 (.reg rd) (clearBit bn)

/-- `BCLR #xx:3, @Rd` (R235). -/
def execBclrImmInd (bn : BitVec 3) (rm : Reg16) (s : State) : Host.Outcome State Fault Refusal :=
  modifyBit s 4 (.mem (s.eaInd rm)) (clearBit bn)

/-- `BCLR #xx:3, @aa:8` (R235). -/
def execBclrImmAbs (bn : BitVec 3) (aa : Byte) (s : State) : Host.Outcome State Fault Refusal :=
  modifyBit s 4 (.mem (eaAbs8 aa)) (clearBit bn)

/-- `BCLR Rn, Rd` (R235). -/
def execBclrRegReg (rn rd : Reg8) (s : State) : Host.Outcome State Fault Refusal :=
  modifyBit s 2 (.reg rd) (clearBit (s.bitNumber rn))

/-- `BCLR Rn, @Rd` (R235). -/
def execBclrRegInd (rn : Reg8) (rm : Reg16) (s : State) : Host.Outcome State Fault Refusal :=
  modifyBit s 4 (.mem (s.eaInd rm)) (clearBit (s.bitNumber rn))

/-- `BCLR Rn, @aa:8` (R235). -/
def execBclrRegAbs (rn : Reg8) (aa : Byte) (s : State) : Host.Outcome State Fault Refusal :=
  modifyBit s 4 (.mem (eaAbs8 aa)) (clearBit (s.bitNumber rn))

/-! ### BNOT (R236) -/

/-- `BNOT #xx:3, Rd` (R236). -/
def execBnotImmReg (bn : BitVec 3) (rd : Reg8) (s : State) : Host.Outcome State Fault Refusal :=
  modifyBit s 2 (.reg rd) (invertBit bn)

/-- `BNOT #xx:3, @Rd` (R236). -/
def execBnotImmInd (bn : BitVec 3) (rm : Reg16) (s : State) : Host.Outcome State Fault Refusal :=
  modifyBit s 4 (.mem (s.eaInd rm)) (invertBit bn)

/-- `BNOT #xx:3, @aa:8` (R236). -/
def execBnotImmAbs (bn : BitVec 3) (aa : Byte) (s : State) : Host.Outcome State Fault Refusal :=
  modifyBit s 4 (.mem (eaAbs8 aa)) (invertBit bn)

/-- `BNOT Rn, Rd` (R236). -/
def execBnotRegReg (rn rd : Reg8) (s : State) : Host.Outcome State Fault Refusal :=
  modifyBit s 2 (.reg rd) (invertBit (s.bitNumber rn))

/-- `BNOT Rn, @Rd` (R236). -/
def execBnotRegInd (rn : Reg8) (rm : Reg16) (s : State) : Host.Outcome State Fault Refusal :=
  modifyBit s 4 (.mem (s.eaInd rm)) (invertBit (s.bitNumber rn))

/-- `BNOT Rn, @aa:8` (R236). -/
def execBnotRegAbs (rn : Reg8) (aa : Byte) (s : State) : Host.Outcome State Fault Refusal :=
  modifyBit s 4 (.mem (eaAbs8 aa)) (invertBit (s.bitNumber rn))

/-! ### BTST (R237) -/

/-- `BTST #xx:3, Rd` (R237). -/
def execBtstImmReg (bn : BitVec 3) (rd : Reg8) (s : State) : Host.Outcome State Fault Refusal :=
  testBit s 2 (.reg rd) (zeroFromBit bn)

/-- `BTST #xx:3, @Rd` (R237). -/
def execBtstImmInd (bn : BitVec 3) (rm : Reg16) (s : State) : Host.Outcome State Fault Refusal :=
  testBit s 4 (.mem (s.eaInd rm)) (zeroFromBit bn)

/-- `BTST #xx:3, @aa:8` (R237). -/
def execBtstImmAbs (bn : BitVec 3) (aa : Byte) (s : State) : Host.Outcome State Fault Refusal :=
  testBit s 4 (.mem (eaAbs8 aa)) (zeroFromBit bn)

/-- `BTST Rn, Rd` (R237). -/
def execBtstRegReg (rn rd : Reg8) (s : State) : Host.Outcome State Fault Refusal :=
  testBit s 2 (.reg rd) (zeroFromBit (s.bitNumber rn))

/-- `BTST Rn, @Rd` (R237). -/
def execBtstRegInd (rn : Reg8) (rm : Reg16) (s : State) : Host.Outcome State Fault Refusal :=
  testBit s 4 (.mem (s.eaInd rm)) (zeroFromBit (s.bitNumber rn))

/-- `BTST Rn, @aa:8` (R237). -/
def execBtstRegAbs (rn : Reg8) (aa : Byte) (s : State) : Host.Outcome State Fault Refusal :=
  testBit s 4 (.mem (eaAbs8 aa)) (zeroFromBit (s.bitNumber rn))

/-! ### BAND (R238) -/

/-- `BAND #xx:3, Rd` (R238). -/
def execBandReg (bn : BitVec 3) (rd : Reg8) (s : State) : Host.Outcome State Fault Refusal :=
  testBit s 2 (.reg rd) (andBit bn)

/-- `BAND #xx:3, @Rd` (R238). -/
def execBandInd (bn : BitVec 3) (rm : Reg16) (s : State) : Host.Outcome State Fault Refusal :=
  testBit s 4 (.mem (s.eaInd rm)) (andBit bn)

/-- `BAND #xx:3, @aa:8` (R238). -/
def execBandAbs (bn : BitVec 3) (aa : Byte) (s : State) : Host.Outcome State Fault Refusal :=
  testBit s 4 (.mem (eaAbs8 aa)) (andBit bn)

/-! ### BIAND (R239) -/

/-- `BIAND #xx:3, Rd` (R239). -/
def execBiandReg (bn : BitVec 3) (rd : Reg8) (s : State) : Host.Outcome State Fault Refusal :=
  testBit s 2 (.reg rd) (andNotBit bn)

/-- `BIAND #xx:3, @Rd` (R239). -/
def execBiandInd (bn : BitVec 3) (rm : Reg16) (s : State) : Host.Outcome State Fault Refusal :=
  testBit s 4 (.mem (s.eaInd rm)) (andNotBit bn)

/-- `BIAND #xx:3, @aa:8` (R239). -/
def execBiandAbs (bn : BitVec 3) (aa : Byte) (s : State) : Host.Outcome State Fault Refusal :=
  testBit s 4 (.mem (eaAbs8 aa)) (andNotBit bn)

/-! ### BOR (R240) -/

/-- `BOR #xx:3, Rd` (R240). -/
def execBorReg (bn : BitVec 3) (rd : Reg8) (s : State) : Host.Outcome State Fault Refusal :=
  testBit s 2 (.reg rd) (orBit bn)

/-- `BOR #xx:3, @Rd` (R240). -/
def execBorInd (bn : BitVec 3) (rm : Reg16) (s : State) : Host.Outcome State Fault Refusal :=
  testBit s 4 (.mem (s.eaInd rm)) (orBit bn)

/-- `BOR #xx:3, @aa:8` (R240). -/
def execBorAbs (bn : BitVec 3) (aa : Byte) (s : State) : Host.Outcome State Fault Refusal :=
  testBit s 4 (.mem (eaAbs8 aa)) (orBit bn)

/-! ### BIOR (R241) -/

/-- `BIOR #xx:3, Rd` (R241). -/
def execBiorReg (bn : BitVec 3) (rd : Reg8) (s : State) : Host.Outcome State Fault Refusal :=
  testBit s 2 (.reg rd) (orNotBit bn)

/-- `BIOR #xx:3, @Rd` (R241). -/
def execBiorInd (bn : BitVec 3) (rm : Reg16) (s : State) : Host.Outcome State Fault Refusal :=
  testBit s 4 (.mem (s.eaInd rm)) (orNotBit bn)

/-- `BIOR #xx:3, @aa:8` (R241). -/
def execBiorAbs (bn : BitVec 3) (aa : Byte) (s : State) : Host.Outcome State Fault Refusal :=
  testBit s 4 (.mem (eaAbs8 aa)) (orNotBit bn)

/-! ### BXOR (R242) -/

/-- `BXOR #xx:3, Rd` (R242). -/
def execBxorReg (bn : BitVec 3) (rd : Reg8) (s : State) : Host.Outcome State Fault Refusal :=
  testBit s 2 (.reg rd) (xorBit bn)

/-- `BXOR #xx:3, @Rd` (R242). -/
def execBxorInd (bn : BitVec 3) (rm : Reg16) (s : State) : Host.Outcome State Fault Refusal :=
  testBit s 4 (.mem (s.eaInd rm)) (xorBit bn)

/-- `BXOR #xx:3, @aa:8` (R242). -/
def execBxorAbs (bn : BitVec 3) (aa : Byte) (s : State) : Host.Outcome State Fault Refusal :=
  testBit s 4 (.mem (eaAbs8 aa)) (xorBit bn)

/-! ### BIXOR (R243) -/

/-- `BIXOR #xx:3, Rd` (R243). -/
def execBixorReg (bn : BitVec 3) (rd : Reg8) (s : State) : Host.Outcome State Fault Refusal :=
  testBit s 2 (.reg rd) (xorNotBit bn)

/-- `BIXOR #xx:3, @Rd` (R243). -/
def execBixorInd (bn : BitVec 3) (rm : Reg16) (s : State) : Host.Outcome State Fault Refusal :=
  testBit s 4 (.mem (s.eaInd rm)) (xorNotBit bn)

/-- `BIXOR #xx:3, @aa:8` (R243). -/
def execBixorAbs (bn : BitVec 3) (aa : Byte) (s : State) : Host.Outcome State Fault Refusal :=
  testBit s 4 (.mem (eaAbs8 aa)) (xorNotBit bn)

/-! ### BLD (R244) -/

/-- `BLD #xx:3, Rd` (R244). -/
def execBldReg (bn : BitVec 3) (rd : Reg8) (s : State) : Host.Outcome State Fault Refusal :=
  testBit s 2 (.reg rd) (loadBit bn)

/-- `BLD #xx:3, @Rd` (R244). -/
def execBldInd (bn : BitVec 3) (rm : Reg16) (s : State) : Host.Outcome State Fault Refusal :=
  testBit s 4 (.mem (s.eaInd rm)) (loadBit bn)

/-- `BLD #xx:3, @aa:8` (R244). -/
def execBldAbs (bn : BitVec 3) (aa : Byte) (s : State) : Host.Outcome State Fault Refusal :=
  testBit s 4 (.mem (eaAbs8 aa)) (loadBit bn)

/-! ### BILD (R245) -/

/-- `BILD #xx:3, Rd` (R245). -/
def execBildReg (bn : BitVec 3) (rd : Reg8) (s : State) : Host.Outcome State Fault Refusal :=
  testBit s 2 (.reg rd) (loadNotBit bn)

/-- `BILD #xx:3, @Rd` (R245). -/
def execBildInd (bn : BitVec 3) (rm : Reg16) (s : State) : Host.Outcome State Fault Refusal :=
  testBit s 4 (.mem (s.eaInd rm)) (loadNotBit bn)

/-- `BILD #xx:3, @aa:8` (R245). -/
def execBildAbs (bn : BitVec 3) (aa : Byte) (s : State) : Host.Outcome State Fault Refusal :=
  testBit s 4 (.mem (eaAbs8 aa)) (loadNotBit bn)

/-! ### BST (R246) -/

/-- `BST #xx:3, Rd` (R246). -/
def execBstReg (bn : BitVec 3) (rd : Reg8) (s : State) : Host.Outcome State Fault Refusal :=
  modifyBit s 2 (.reg rd) (putBit bn (CCR.c s.ccr))

/-- `BST #xx:3, @Rd` (R246). -/
def execBstInd (bn : BitVec 3) (rm : Reg16) (s : State) : Host.Outcome State Fault Refusal :=
  modifyBit s 4 (.mem (s.eaInd rm)) (putBit bn (CCR.c s.ccr))

/-- `BST #xx:3, @aa:8` (R246). -/
def execBstAbs (bn : BitVec 3) (aa : Byte) (s : State) : Host.Outcome State Fault Refusal :=
  modifyBit s 4 (.mem (eaAbs8 aa)) (putBit bn (CCR.c s.ccr))

/-! ### BIST (R247) -/

/-- `BIST #xx:3, Rd` (R247). -/
def execBistReg (bn : BitVec 3) (rd : Reg8) (s : State) : Host.Outcome State Fault Refusal :=
  modifyBit s 2 (.reg rd) (putBit bn (!CCR.c s.ccr))

/-- `BIST #xx:3, @Rd` (R247). -/
def execBistInd (bn : BitVec 3) (rm : Reg16) (s : State) : Host.Outcome State Fault Refusal :=
  modifyBit s 4 (.mem (s.eaInd rm)) (putBit bn (!CCR.c s.ccr))

/-- `BIST #xx:3, @aa:8` (R247). -/
def execBistAbs (bn : BitVec 3) (aa : Byte) (s : State) : Host.Outcome State Fault Refusal :=
  modifyBit s 4 (.mem (eaAbs8 aa)) (putBit bn (!CCR.c s.ccr))

end Sys2Proof.Machine
end

