-- ==== Sys2Proof/Machine/BlockTransfer.lean ====
section
/-! DEFINITION. The block data transfer instruction EEPMOV (47_block_transfer.md), one indivisible instruction (R321,
D17). -/

namespace Sys2Proof.Machine

/-- One turn of EEPMOV's loop (R320): a byte read at R5, written at R6, both counted up, R4L counted down. -/
def State.copyByte (s : State) (next : Word) : Except Refusal State :=
  match s.loadByte (s.reg .r5) with
  | (b, s1) =>
    match s1.storeByte (some next) (s1.reg .r6) b with
    | .ok s2 =>
      .ok (((s2.setReg .r5 (s2.reg .r5 + 1#16)).setReg .r6 (s2.reg .r6 + 1#16)).setRegB (.lo .r4) (s2.regB (.lo .r4) - 1#8))
    | .error r => .error r

/-- `k` turns of the loop. -/
def copyBlock (next : Word) (k : Nat) (s : State) : Except Refusal State :=
  match k with
  | 0 => .ok s
  | k + 1 =>
    match s.copyByte next with
    | .ok s1 => copyBlock next k s1
    | .error r => .error r

/-- `EEPMOV` (R320): R4L turns, none when it is 0. -/
def execEepmov (s : State) : Host.Outcome State Fault Refusal :=
  match copyBlock (s.nextPc 4) (s.regB (.lo .r4)).toNat s with
  | .ok s1 => .next (s1.advance 4)
  | .error r => .refused r

end Sys2Proof.Machine
end

