-- ==== Sys2Proof/Machine/Branch.lean ====
section
/-! DEFINITION. The branching instructions Bcc, JMP, BSR, JSR, RTS (45_branch.md). None changes CCR (R270); every value
written to PC loses bit 0 (R28, R270). -/

namespace Sys2Proof.Machine

/-! ### Shared forms -/

/-- Bcc: the target when the condition holds, else the next instruction (R271). -/
def State.branchIf (s : State) (cond : Bool) (disp : Byte) : State :=
  if cond then s.setPc (s.branchTarget disp) else s.advance 2

/-- `Push16(next); pc <- t` (R280, R281), for an instruction of `len` bytes. -/
def State.callTo (s : State) (len t : Word) : Host.Outcome State Fault Refusal :=
  match s.push16 (some (s.nextPc len)) (s.nextPc len) with
  | .ok s1 => .next (s1.setPc t)
  | .error r => .refused r

/-! ### Bcc (R271 to R276) -/

/-- `BRA d:8` (R271, R272). -/
def execBra (disp : Byte) (s : State) : Host.Outcome State Fault Refusal :=
  .next (s.branchIf true disp)

/-- `BRN d:8` (R271, R272). -/
def execBrn (disp : Byte) (s : State) : Host.Outcome State Fault Refusal :=
  .next (s.branchIf false disp)

/-- `BHI d:8` (R271, R273). -/
def execBhi (disp : Byte) (s : State) : Host.Outcome State Fault Refusal :=
  .next (s.branchIf (!CCR.lowOrSame s.ccr) disp)

/-- `BLS d:8` (R271, R273). -/
def execBls (disp : Byte) (s : State) : Host.Outcome State Fault Refusal :=
  .next (s.branchIf (CCR.lowOrSame s.ccr) disp)

/-- `BCC d:8` (R271, R273). -/
def execBcc (disp : Byte) (s : State) : Host.Outcome State Fault Refusal :=
  .next (s.branchIf (!CCR.c s.ccr) disp)

/-- `BCS d:8` (R271, R273). -/
def execBcs (disp : Byte) (s : State) : Host.Outcome State Fault Refusal :=
  .next (s.branchIf (CCR.c s.ccr) disp)

/-- `BNE d:8` (R271, R274). -/
def execBne (disp : Byte) (s : State) : Host.Outcome State Fault Refusal :=
  .next (s.branchIf (!CCR.z s.ccr) disp)

/-- `BEQ d:8` (R271, R274). -/
def execBeq (disp : Byte) (s : State) : Host.Outcome State Fault Refusal :=
  .next (s.branchIf (CCR.z s.ccr) disp)

/-- `BVC d:8` (R271, R275). -/
def execBvc (disp : Byte) (s : State) : Host.Outcome State Fault Refusal :=
  .next (s.branchIf (!CCR.v s.ccr) disp)

/-- `BVS d:8` (R271, R275). -/
def execBvs (disp : Byte) (s : State) : Host.Outcome State Fault Refusal :=
  .next (s.branchIf (CCR.v s.ccr) disp)

/-- `BPL d:8` (R271, R275). -/
def execBpl (disp : Byte) (s : State) : Host.Outcome State Fault Refusal :=
  .next (s.branchIf (!CCR.n s.ccr) disp)

/-- `BMI d:8` (R271, R275). -/
def execBmi (disp : Byte) (s : State) : Host.Outcome State Fault Refusal :=
  .next (s.branchIf (CCR.n s.ccr) disp)

/-- `BGE d:8` (R271, R276). -/
def execBge (disp : Byte) (s : State) : Host.Outcome State Fault Refusal :=
  .next (s.branchIf (!CCR.lessThan s.ccr) disp)

/-- `BLT d:8` (R271, R276). -/
def execBlt (disp : Byte) (s : State) : Host.Outcome State Fault Refusal :=
  .next (s.branchIf (CCR.lessThan s.ccr) disp)

/-- `BGT d:8` (R271, R276). -/
def execBgt (disp : Byte) (s : State) : Host.Outcome State Fault Refusal :=
  .next (s.branchIf (!CCR.lessOrEqual s.ccr) disp)

/-- `BLE d:8` (R271, R276). -/
def execBle (disp : Byte) (s : State) : Host.Outcome State Fault Refusal :=
  .next (s.branchIf (CCR.lessOrEqual s.ccr) disp)

/-! ### JMP (R277 to R279) -/

/-- `JMP @Rn` (R277). -/
def execJmpInd (rm : Reg16) (s : State) : Host.Outcome State Fault Refusal :=
  .next (s.setPc (s.reg rm))

/-- `JMP @aa:16` (R278). -/
def execJmpAbs (aa : Word) (s : State) : Host.Outcome State Fault Refusal :=
  .next (s.setPc aa)

/-- `JMP @@aa:8` (R279). -/
def execJmpMemInd (aa : Byte) (s : State) : Host.Outcome State Fault Refusal :=
  match s.loadWord (eaMemInd aa) with
  | .ok (t, s1) => .next (s1.setPc t)
  | .error r => .refused r

/-! ### BSR, JSR, RTS (R280 to R282) -/

/-- `BSR d:8` (R280). -/
def execBsr (disp : Byte) (s : State) : Host.Outcome State Fault Refusal :=
  s.callTo 2 (s.branchTarget disp)

/-- `JSR @Rn` (R281): the target is read before the push. -/
def execJsrInd (rm : Reg16) (s : State) : Host.Outcome State Fault Refusal :=
  s.callTo 2 (s.reg rm)

/-- `JSR @aa:16` (R281). -/
def execJsrAbs (aa : Word) (s : State) : Host.Outcome State Fault Refusal :=
  s.callTo 4 aa

/-- `JSR @@aa:8` (R281): the pointer word is read before the push. -/
def execJsrMemInd (aa : Byte) (s : State) : Host.Outcome State Fault Refusal :=
  match s.loadWord (eaMemInd aa) with
  | .ok (t, s1) => s1.callTo 2 t
  | .error r => .refused r

/-- `RTS` (R282). -/
def execRts (s : State) : Host.Outcome State Fault Refusal :=
  match s.pop16 with
  | .ok (t, s1) => .next (s1.setPc t)
  | .error r => .refused r

end Sys2Proof.Machine
end

