-- ==== Sys2Proof/Machine/DataTransfer.lean ====
section
/-! DEFINITION. The data transfer instructions MOV.B, MOV.W, POP and PUSH (40_data_transfer.md). -/

namespace Sys2Proof.Machine

/-! ### The common part (R120) -/

/-- A byte moved into a register, with its flags; the next instruction follows. -/
def State.moveToRegB (s : State) (len : Word) (v : Byte) (rd : Reg8) : State :=
  ((s.setRegB rd v).setCcr (CCR.moved s.ccr v)).advance len

/-- A word moved into a register, with its flags; the next instruction follows. -/
def State.moveToReg (s : State) (len v : Word) (rd : Reg16) : State :=
  ((s.setReg rd v).setCcr (CCR.moved s.ccr v)).advance len

/-- `v = MemRead(ea, 1); xb[d] <- v`. -/
def loadMovB (s : State) (len ea : Word) (rd : Reg8) : Host.Outcome State Fault Refusal :=
  match s.loadByte ea with
  | (v, s1) => .next (s1.moveToRegB len v rd)

/-- `v = MemRead(ea, 2); x[d] <- v`. -/
def loadMovW (s : State) (len ea : Word) (rd : Reg16) : Host.Outcome State Fault Refusal :=
  match s.loadWord ea with
  | .ok (v, s1) => .next (s1.moveToReg len v rd)
  | .error r => .refused r

/-- `MemWrite(ea, 1, v)`, flags from `v`. -/
def storeMovB (s : State) (len ea : Word) (v : Byte) : Host.Outcome State Fault Refusal :=
  match s.storeByte (some (s.nextPc len)) ea v with
  | .ok s1 => .next ((s1.setCcr (CCR.moved s1.ccr v)).advance len)
  | .error r => .refused r

/-- `MemWrite(ea, 2, v)`, flags from `v`. -/
def storeMovW (s : State) (len ea v : Word) : Host.Outcome State Fault Refusal :=
  match s.storeWord (some (s.nextPc len)) ea v with
  | .ok s1 => .next ((s1.setCcr (CCR.moved s1.ccr v)).advance len)
  | .error r => .refused r

/-! ### MOV.B (R121 to R132) -/

/-- `MOV.B Rs, Rd` (R121). -/
def execMovBReg (rs rd : Reg8) (s : State) : Host.Outcome State Fault Refusal :=
  .next (s.moveToRegB 2 (s.regB rs) rd)

/-- `MOV.B #xx:8, Rd` (R122). -/
def execMovBImm (imm : Byte) (rd : Reg8) (s : State) : Host.Outcome State Fault Refusal :=
  .next (s.moveToRegB 2 imm rd)

/-- `MOV.B @Rs, Rd` (R123). -/
def execMovBInd (rm : Reg16) (rd : Reg8) (s : State) : Host.Outcome State Fault Refusal :=
  loadMovB s 2 (s.eaInd rm) rd

/-- `MOV.B @(d:16, Rs), Rd` (R124). -/
def execMovBDisp (disp : Word) (rm : Reg16) (rd : Reg8) (s : State) : Host.Outcome State Fault Refusal :=
  loadMovB s 4 (s.eaDisp disp rm) rd

/-- `MOV.B @Rs+, Rd` (R125); not with R7 (R146), nor with Rd a half of Rs (R145 b). -/
def execMovBPostInc (rm : Reg16) (rd : Reg8) (s : State) : Host.Outcome State Fault Refusal :=
  if rm = .r7 then .refused .byteAutoModifySP
  else if rd.pair = rm then .refused .postIncrementOwnRegister
  else
    match s.loadByte (s.reg rm) with
    | (v, s1) => .next ((s1.setReg rm (s1.reg rm + 1#16)).moveToRegB 2 v rd)

/-- `MOV.B @aa:8, Rd` (R126). -/
def execMovBAbs8 (aa : Byte) (rd : Reg8) (s : State) : Host.Outcome State Fault Refusal :=
  loadMovB s 2 (eaAbs8 aa) rd

/-- `MOV.B @aa:16, Rd` (R127). -/
def execMovBAbs16 (aa : Word) (rd : Reg8) (s : State) : Host.Outcome State Fault Refusal :=
  loadMovB s 4 aa rd

/-- `MOV.B Rs, @Rd` (R128). -/
def execMovBToInd (rs : Reg8) (rm : Reg16) (s : State) : Host.Outcome State Fault Refusal :=
  storeMovB s 2 (s.eaInd rm) (s.regB rs)

/-- `MOV.B Rs, @(d:16, Rd)` (R129). -/
def execMovBToDisp (rs : Reg8) (disp : Word) (rm : Reg16) (s : State) : Host.Outcome State Fault Refusal :=
  storeMovB s 4 (s.eaDisp disp rm) (s.regB rs)

/-- `MOV.B Rs, @-Rd` (R130): Rs is read after the decrement (R145 a, D28); not with R7 (R146). -/
def execMovBPreDec (rs : Reg8) (rm : Reg16) (s : State) : Host.Outcome State Fault Refusal :=
  if rm = .r7 then .refused .byteAutoModifySP
  else storeMovB (s.setReg rm (s.reg rm - 1#16)) 2 (s.reg rm - 1#16) ((s.setReg rm (s.reg rm - 1#16)).regB rs)

/-- `MOV.B Rs, @aa:8` (R131). -/
def execMovBToAbs8 (rs : Reg8) (aa : Byte) (s : State) : Host.Outcome State Fault Refusal :=
  storeMovB s 2 (eaAbs8 aa) (s.regB rs)

/-- `MOV.B Rs, @aa:16` (R132). -/
def execMovBToAbs16 (rs : Reg8) (aa : Word) (s : State) : Host.Outcome State Fault Refusal :=
  storeMovB s 4 aa (s.regB rs)

/-! ### MOV.W (R133 to R142) -/

/-- `MOV.W Rs, Rd` (R133). -/
def execMovWReg (rs rd : Reg16) (s : State) : Host.Outcome State Fault Refusal :=
  .next (s.moveToReg 2 (s.reg rs) rd)

/-- `MOV.W #xx:16, Rd` (R134). -/
def execMovWImm (imm : Word) (rd : Reg16) (s : State) : Host.Outcome State Fault Refusal :=
  .next (s.moveToReg 4 imm rd)

/-- `MOV.W @Rs, Rd` (R135). -/
def execMovWInd (rm rd : Reg16) (s : State) : Host.Outcome State Fault Refusal :=
  loadMovW s 2 (s.eaInd rm) rd

/-- `MOV.W @(d:16, Rs), Rd` (R136). -/
def execMovWDisp (disp : Word) (rm rd : Reg16) (s : State) : Host.Outcome State Fault Refusal :=
  loadMovW s 4 (s.eaDisp disp rm) rd

/-- `MOV.W @Rs+, Rd` (R137); not with Rd = Rs (R145 b). -/
def execMovWPostInc (rm rd : Reg16) (s : State) : Host.Outcome State Fault Refusal :=
  if rd = rm then .refused .postIncrementOwnRegister
  else
    match s.loadWord (s.reg rm) with
    | .ok (v, s1) => .next ((s1.setReg rm (s1.reg rm + 2#16)).moveToReg 2 v rd)
    | .error r => .refused r

/-- `MOV.W @aa:16, Rd` (R138). -/
def execMovWAbs16 (aa : Word) (rd : Reg16) (s : State) : Host.Outcome State Fault Refusal :=
  loadMovW s 4 aa rd

/-- `MOV.W Rs, @Rd` (R139). -/
def execMovWToInd (rs rm : Reg16) (s : State) : Host.Outcome State Fault Refusal :=
  storeMovW s 2 (s.eaInd rm) (s.reg rs)

/-- `MOV.W Rs, @(d:16, Rd)` (R140). -/
def execMovWToDisp (rs : Reg16) (disp : Word) (rm : Reg16) (s : State) : Host.Outcome State Fault Refusal :=
  storeMovW s 4 (s.eaDisp disp rm) (s.reg rs)

/-- `MOV.W Rs, @-Rd` (R141): Rs is read after the decrement (R145 a, D28). -/
def execMovWPreDec (rs rm : Reg16) (s : State) : Host.Outcome State Fault Refusal :=
  storeMovW (s.setReg rm (s.reg rm - 2#16)) 2 (s.reg rm - 2#16) ((s.setReg rm (s.reg rm - 2#16)).reg rs)

/-- `MOV.W Rs, @aa:16` (R142). -/
def execMovWToAbs16 (rs : Reg16) (aa : Word) (s : State) : Host.Outcome State Fault Refusal :=
  storeMovW s 4 aa (s.reg rs)

/-! ### POP and PUSH (R143, R144) -/

/-- `POP Rd` (R143): `v = Pop16(); x[d] <- v`; not `POP R7` (R145 b). -/
def execPop (rd : Reg16) (s : State) : Host.Outcome State Fault Refusal :=
  if rd = .r7 then .refused .postIncrementOwnRegister
  else
    match s.pop16 with
    | .ok (v, s1) => .next (s1.moveToReg 2 v rd)
    | .error r => .refused r

/-- `PUSH Rs` (R144): `PUSH R7` stores SP after the decrement (R145 a, D28). -/
def execPush (rs : Reg16) (s : State) : Host.Outcome State Fault Refusal :=
  storeMovW (s.setReg .r7 (s.reg .r7 - 2#16)) 2 (s.reg .r7 - 2#16) ((s.setReg .r7 (s.reg .r7 - 2#16)).reg rs)

end Sys2Proof.Machine
end

