-- ==== Sys2Proof/Machine/Logic.lean ====
section
/-! DEFINITION. The logic instructions AND, OR, XOR, NOT (42_logic.md). -/

namespace Sys2Proof.Machine

/-- A byte result with N and Z from it and V cleared (R200). -/
def State.logicB (s : State) (r : Byte) (rd : Reg8) : State :=
  ((s.setRegB rd r).setCcr (CCR.moved s.ccr r)).advance 2

/-- `AND #xx:8, Rd` (R201). -/
def execAndImm (imm : Byte) (rd : Reg8) (s : State) : Host.Outcome State Fault Refusal :=
  .next (s.logicB (s.regB rd &&& imm) rd)

/-- `AND Rs, Rd` (R201). -/
def execAndReg (rs rd : Reg8) (s : State) : Host.Outcome State Fault Refusal :=
  .next (s.logicB (s.regB rd &&& s.regB rs) rd)

/-- `OR #xx:8, Rd` (R202). -/
def execOrImm (imm : Byte) (rd : Reg8) (s : State) : Host.Outcome State Fault Refusal :=
  .next (s.logicB (s.regB rd ||| imm) rd)

/-- `OR Rs, Rd` (R202). -/
def execOrReg (rs rd : Reg8) (s : State) : Host.Outcome State Fault Refusal :=
  .next (s.logicB (s.regB rd ||| s.regB rs) rd)

/-- `XOR #xx:8, Rd` (R203). -/
def execXorImm (imm : Byte) (rd : Reg8) (s : State) : Host.Outcome State Fault Refusal :=
  .next (s.logicB (s.regB rd ^^^ imm) rd)

/-- `XOR Rs, Rd` (R203). -/
def execXorReg (rs rd : Reg8) (s : State) : Host.Outcome State Fault Refusal :=
  .next (s.logicB (s.regB rd ^^^ s.regB rs) rd)

/-- `NOT Rd` (R204). -/
def execNotB (rd : Reg8) (s : State) : Host.Outcome State Fault Refusal :=
  .next (s.logicB (~~~s.regB rd) rd)

end Sys2Proof.Machine
end

