-- ==== Sys2Proof/Machine/Shift.lean ====
section
/-! DEFINITION. The shift and rotate instructions (43_shift.md), each by one bit position. -/

namespace Sys2Proof.Machine

/-- A shifted byte written with its flags (R210). -/
def State.shiftB (s : State) (x : Shifted) (rd : Reg8) : State :=
  ((s.setRegB rd x.value).setCcr (CCR.shifted s.ccr x)).advance 2

/-- `SHAL Rd` (R211): V tells that the sign changed. -/
def execShal (rd : Reg8) (s : State) : Host.Outcome State Fault Refusal :=
  .next (s.shiftB (shiftLeft (s.regB rd) false ((s.regB rd).getLsbD 7 ^^ (s.regB rd).getLsbD 6)) rd)

/-- `SHAR Rd` (R212): the sign bit stays. -/
def execShar (rd : Reg8) (s : State) : Host.Outcome State Fault Refusal :=
  .next (s.shiftB (shiftRight (s.regB rd) ((s.regB rd).getLsbD 7)) rd)

/-- `SHLL Rd` (R213). -/
def execShll (rd : Reg8) (s : State) : Host.Outcome State Fault Refusal :=
  .next (s.shiftB (shiftLeft (s.regB rd) false false) rd)

/-- `SHLR Rd` (R214): bit 7 of the result is 0, so N is cleared. -/
def execShlr (rd : Reg8) (s : State) : Host.Outcome State Fault Refusal :=
  .next (s.shiftB (shiftRight (s.regB rd) false) rd)

/-- `ROTL Rd` (R215). -/
def execRotl (rd : Reg8) (s : State) : Host.Outcome State Fault Refusal :=
  .next (s.shiftB (shiftLeft (s.regB rd) ((s.regB rd).getLsbD 7) false) rd)

/-- `ROTR Rd` (R216). -/
def execRotr (rd : Reg8) (s : State) : Host.Outcome State Fault Refusal :=
  .next (s.shiftB (shiftRight (s.regB rd) ((s.regB rd).getLsbD 0)) rd)

/-- `ROTXL Rd` (R217): the old C enters at bit 0. -/
def execRotxl (rd : Reg8) (s : State) : Host.Outcome State Fault Refusal :=
  .next (s.shiftB (shiftLeft (s.regB rd) (CCR.c s.ccr) false) rd)

/-- `ROTXR Rd` (R218): the old C enters at bit 7. -/
def execRotxr (rd : Reg8) (s : State) : Host.Outcome State Fault Refusal :=
  .next (s.shiftB (shiftRight (s.regB rd) (CCR.c s.ccr)) rd)

end Sys2Proof.Machine
end

