-- ==== Sys2Proof/Machine/SystemControl.lean ====
section
/-! DEFINITION. The system control instructions RTE, SLEEP, LDC, STC, ANDC, ORC, XORC, NOP (46_system_control.md). None
is privileged (R309, R340). -/

namespace Sys2Proof.Machine

/-- All eight bits of CCR written; the next instruction follows. -/
def State.loadCcr (s : State) (c : Byte) : State := (s.setCcr c).advance 2

/-- `RTE` (R300). -/
def execRte (s : State) : Host.Outcome State Fault Refusal :=
  outcome s.returnFromException

/-- `SLEEP` (R301). -/
def execSleep (s : State) : Host.Outcome State Fault Refusal :=
  .next ((s.advance 2).setMode .powerDown)

/-- `LDC #xx:8, CCR` (R302). -/
def execLdcImm (imm : Byte) (s : State) : Host.Outcome State Fault Refusal :=
  .next (s.loadCcr imm)

/-- `LDC Rs, CCR` (R303). -/
def execLdcReg (rs : Reg8) (s : State) : Host.Outcome State Fault Refusal :=
  .next (s.loadCcr (s.regB rs))

/-- `STC CCR, Rd` (R304). -/
def execStc (rd : Reg8) (s : State) : Host.Outcome State Fault Refusal :=
  .next ((s.setRegB rd s.ccr).advance 2)

/-- `ANDC #xx:8, CCR` (R305). -/
def execAndc (imm : Byte) (s : State) : Host.Outcome State Fault Refusal :=
  .next (s.loadCcr (s.ccr &&& imm))

/-- `ORC #xx:8, CCR` (R306). -/
def execOrc (imm : Byte) (s : State) : Host.Outcome State Fault Refusal :=
  .next (s.loadCcr (s.ccr ||| imm))

/-- `XORC #xx:8, CCR` (R307). -/
def execXorc (imm : Byte) (s : State) : Host.Outcome State Fault Refusal :=
  .next (s.loadCcr (s.ccr ^^^ imm))

/-- `NOP` (R308). -/
def execNop (s : State) : Host.Outcome State Fault Refusal :=
  .next (s.advance 2)

end Sys2Proof.Machine
end

