-- ==== Sys2Proof/Machine/Dispatch.lean ====
section
/-! DEFINITION. The meaning of each instruction, one arm for each constructor. -/

namespace Sys2Proof.Machine

def exec (i : Instr) (s : State) : Host.Outcome State Fault Refusal :=
  match i with
  -- Data transfer: MOV.B (R121 to R132)
  | .movBReg rs rd => Sys2Proof.Machine.execMovBReg rs rd s
  | .movBImm imm rd => Sys2Proof.Machine.execMovBImm imm rd s
  | .movBInd rm rd => Sys2Proof.Machine.execMovBInd rm rd s
  | .movBDisp disp rm rd => Sys2Proof.Machine.execMovBDisp disp rm rd s
  | .movBPostInc rm rd => Sys2Proof.Machine.execMovBPostInc rm rd s
  | .movBAbs8 aa rd => Sys2Proof.Machine.execMovBAbs8 aa rd s
  | .movBAbs16 aa rd => Sys2Proof.Machine.execMovBAbs16 aa rd s
  | .movBToInd rs rm => Sys2Proof.Machine.execMovBToInd rs rm s
  | .movBToDisp rs disp rm => Sys2Proof.Machine.execMovBToDisp rs disp rm s
  | .movBPreDec rs rm => Sys2Proof.Machine.execMovBPreDec rs rm s
  | .movBToAbs8 rs aa => Sys2Proof.Machine.execMovBToAbs8 rs aa s
  | .movBToAbs16 rs aa => Sys2Proof.Machine.execMovBToAbs16 rs aa s
  -- Data transfer: MOV.W (R133 to R142), POP (R143), PUSH (R144)
  | .movWReg rs rd => Sys2Proof.Machine.execMovWReg rs rd s
  | .movWImm imm rd => Sys2Proof.Machine.execMovWImm imm rd s
  | .movWInd rm rd => Sys2Proof.Machine.execMovWInd rm rd s
  | .movWDisp disp rm rd => Sys2Proof.Machine.execMovWDisp disp rm rd s
  | .movWPostInc rm rd => Sys2Proof.Machine.execMovWPostInc rm rd s
  | .movWAbs16 aa rd => Sys2Proof.Machine.execMovWAbs16 aa rd s
  | .movWToInd rs rm => Sys2Proof.Machine.execMovWToInd rs rm s
  | .movWToDisp rs disp rm => Sys2Proof.Machine.execMovWToDisp rs disp rm s
  | .movWPreDec rs rm => Sys2Proof.Machine.execMovWPreDec rs rm s
  | .movWToAbs16 rs aa => Sys2Proof.Machine.execMovWToAbs16 rs aa s
  | .pop rd => Sys2Proof.Machine.execPop rd s
  | .push rs => Sys2Proof.Machine.execPush rs s
  -- Arithmetic (R164 to R180)
  | .addBImm imm rd => Sys2Proof.Machine.execAddBImm imm rd s
  | .addBReg rs rd => Sys2Proof.Machine.execAddBReg rs rd s
  | .addW rs rd => Sys2Proof.Machine.execAddW rs rd s
  | .addxImm imm rd => Sys2Proof.Machine.execAddxImm imm rd s
  | .addxReg rs rd => Sys2Proof.Machine.execAddxReg rs rd s
  | .subxImm imm rd => Sys2Proof.Machine.execSubxImm imm rd s
  | .subxReg rs rd => Sys2Proof.Machine.execSubxReg rs rd s
  | .subB rs rd => Sys2Proof.Machine.execSubB rs rd s
  | .subW rs rd => Sys2Proof.Machine.execSubW rs rd s
  | .inc rd => Sys2Proof.Machine.execInc rd s
  | .dec rd => Sys2Proof.Machine.execDec rd s
  | .adds1 rd => Sys2Proof.Machine.execAdds1 rd s
  | .adds2 rd => Sys2Proof.Machine.execAdds2 rd s
  | .subs1 rd => Sys2Proof.Machine.execSubs1 rd s
  | .subs2 rd => Sys2Proof.Machine.execSubs2 rd s
  | .cmpBImm imm rd => Sys2Proof.Machine.execCmpBImm imm rd s
  | .cmpBReg rs rd => Sys2Proof.Machine.execCmpBReg rs rd s
  | .cmpW rs rd => Sys2Proof.Machine.execCmpW rs rd s
  | .daa rd => Sys2Proof.Machine.execDaa rd s
  | .das rd => Sys2Proof.Machine.execDas rd s
  | .mulxu rs rd => Sys2Proof.Machine.execMulxu rs rd s
  | .divxu rs rd => Sys2Proof.Machine.execDivxu rs rd s
  | .neg rd => Sys2Proof.Machine.execNeg rd s
  -- Logic (R201 to R204)
  | .andImm imm rd => Sys2Proof.Machine.execAndImm imm rd s
  | .andReg rs rd => Sys2Proof.Machine.execAndReg rs rd s
  | .orImm imm rd => Sys2Proof.Machine.execOrImm imm rd s
  | .orReg rs rd => Sys2Proof.Machine.execOrReg rs rd s
  | .xorImm imm rd => Sys2Proof.Machine.execXorImm imm rd s
  | .xorReg rs rd => Sys2Proof.Machine.execXorReg rs rd s
  | .notB rd => Sys2Proof.Machine.execNotB rd s
  -- Shift and rotate (R211 to R218)
  | .shal rd => Sys2Proof.Machine.execShal rd s
  | .shar rd => Sys2Proof.Machine.execShar rd s
  | .shll rd => Sys2Proof.Machine.execShll rd s
  | .shlr rd => Sys2Proof.Machine.execShlr rd s
  | .rotl rd => Sys2Proof.Machine.execRotl rd s
  | .rotr rd => Sys2Proof.Machine.execRotr rd s
  | .rotxl rd => Sys2Proof.Machine.execRotxl rd s
  | .rotxr rd => Sys2Proof.Machine.execRotxr rd s
  -- Bit manipulation, bit number immediate or in a register (R234 to R237)
  | .bsetImmReg bn rd => Sys2Proof.Machine.execBsetImmReg bn rd s
  | .bsetImmInd bn rm => Sys2Proof.Machine.execBsetImmInd bn rm s
  | .bsetImmAbs bn aa => Sys2Proof.Machine.execBsetImmAbs bn aa s
  | .bsetRegReg rn rd => Sys2Proof.Machine.execBsetRegReg rn rd s
  | .bsetRegInd rn rm => Sys2Proof.Machine.execBsetRegInd rn rm s
  | .bsetRegAbs rn aa => Sys2Proof.Machine.execBsetRegAbs rn aa s
  | .bclrImmReg bn rd => Sys2Proof.Machine.execBclrImmReg bn rd s
  | .bclrImmInd bn rm => Sys2Proof.Machine.execBclrImmInd bn rm s
  | .bclrImmAbs bn aa => Sys2Proof.Machine.execBclrImmAbs bn aa s
  | .bclrRegReg rn rd => Sys2Proof.Machine.execBclrRegReg rn rd s
  | .bclrRegInd rn rm => Sys2Proof.Machine.execBclrRegInd rn rm s
  | .bclrRegAbs rn aa => Sys2Proof.Machine.execBclrRegAbs rn aa s
  | .bnotImmReg bn rd => Sys2Proof.Machine.execBnotImmReg bn rd s
  | .bnotImmInd bn rm => Sys2Proof.Machine.execBnotImmInd bn rm s
  | .bnotImmAbs bn aa => Sys2Proof.Machine.execBnotImmAbs bn aa s
  | .bnotRegReg rn rd => Sys2Proof.Machine.execBnotRegReg rn rd s
  | .bnotRegInd rn rm => Sys2Proof.Machine.execBnotRegInd rn rm s
  | .bnotRegAbs rn aa => Sys2Proof.Machine.execBnotRegAbs rn aa s
  | .btstImmReg bn rd => Sys2Proof.Machine.execBtstImmReg bn rd s
  | .btstImmInd bn rm => Sys2Proof.Machine.execBtstImmInd bn rm s
  | .btstImmAbs bn aa => Sys2Proof.Machine.execBtstImmAbs bn aa s
  | .btstRegReg rn rd => Sys2Proof.Machine.execBtstRegReg rn rd s
  | .btstRegInd rn rm => Sys2Proof.Machine.execBtstRegInd rn rm s
  | .btstRegAbs rn aa => Sys2Proof.Machine.execBtstRegAbs rn aa s
  -- Bit manipulation with the carry flag (R238 to R247)
  | .bandReg bn rd => Sys2Proof.Machine.execBandReg bn rd s
  | .bandInd bn rm => Sys2Proof.Machine.execBandInd bn rm s
  | .bandAbs bn aa => Sys2Proof.Machine.execBandAbs bn aa s
  | .biandReg bn rd => Sys2Proof.Machine.execBiandReg bn rd s
  | .biandInd bn rm => Sys2Proof.Machine.execBiandInd bn rm s
  | .biandAbs bn aa => Sys2Proof.Machine.execBiandAbs bn aa s
  | .borReg bn rd => Sys2Proof.Machine.execBorReg bn rd s
  | .borInd bn rm => Sys2Proof.Machine.execBorInd bn rm s
  | .borAbs bn aa => Sys2Proof.Machine.execBorAbs bn aa s
  | .biorReg bn rd => Sys2Proof.Machine.execBiorReg bn rd s
  | .biorInd bn rm => Sys2Proof.Machine.execBiorInd bn rm s
  | .biorAbs bn aa => Sys2Proof.Machine.execBiorAbs bn aa s
  | .bxorReg bn rd => Sys2Proof.Machine.execBxorReg bn rd s
  | .bxorInd bn rm => Sys2Proof.Machine.execBxorInd bn rm s
  | .bxorAbs bn aa => Sys2Proof.Machine.execBxorAbs bn aa s
  | .bixorReg bn rd => Sys2Proof.Machine.execBixorReg bn rd s
  | .bixorInd bn rm => Sys2Proof.Machine.execBixorInd bn rm s
  | .bixorAbs bn aa => Sys2Proof.Machine.execBixorAbs bn aa s
  | .bldReg bn rd => Sys2Proof.Machine.execBldReg bn rd s
  | .bldInd bn rm => Sys2Proof.Machine.execBldInd bn rm s
  | .bldAbs bn aa => Sys2Proof.Machine.execBldAbs bn aa s
  | .bildReg bn rd => Sys2Proof.Machine.execBildReg bn rd s
  | .bildInd bn rm => Sys2Proof.Machine.execBildInd bn rm s
  | .bildAbs bn aa => Sys2Proof.Machine.execBildAbs bn aa s
  | .bstReg bn rd => Sys2Proof.Machine.execBstReg bn rd s
  | .bstInd bn rm => Sys2Proof.Machine.execBstInd bn rm s
  | .bstAbs bn aa => Sys2Proof.Machine.execBstAbs bn aa s
  | .bistReg bn rd => Sys2Proof.Machine.execBistReg bn rd s
  | .bistInd bn rm => Sys2Proof.Machine.execBistInd bn rm s
  | .bistAbs bn aa => Sys2Proof.Machine.execBistAbs bn aa s
  -- Branching (R271 to R282)
  | .bra disp => Sys2Proof.Machine.execBra disp s
  | .brn disp => Sys2Proof.Machine.execBrn disp s
  | .bhi disp => Sys2Proof.Machine.execBhi disp s
  | .bls disp => Sys2Proof.Machine.execBls disp s
  | .bcc disp => Sys2Proof.Machine.execBcc disp s
  | .bcs disp => Sys2Proof.Machine.execBcs disp s
  | .bne disp => Sys2Proof.Machine.execBne disp s
  | .beq disp => Sys2Proof.Machine.execBeq disp s
  | .bvc disp => Sys2Proof.Machine.execBvc disp s
  | .bvs disp => Sys2Proof.Machine.execBvs disp s
  | .bpl disp => Sys2Proof.Machine.execBpl disp s
  | .bmi disp => Sys2Proof.Machine.execBmi disp s
  | .bge disp => Sys2Proof.Machine.execBge disp s
  | .blt disp => Sys2Proof.Machine.execBlt disp s
  | .bgt disp => Sys2Proof.Machine.execBgt disp s
  | .ble disp => Sys2Proof.Machine.execBle disp s
  | .jmpInd rm => Sys2Proof.Machine.execJmpInd rm s
  | .jmpAbs aa => Sys2Proof.Machine.execJmpAbs aa s
  | .jmpMemInd aa => Sys2Proof.Machine.execJmpMemInd aa s
  | .bsr disp => Sys2Proof.Machine.execBsr disp s
  | .jsrInd rm => Sys2Proof.Machine.execJsrInd rm s
  | .jsrAbs aa => Sys2Proof.Machine.execJsrAbs aa s
  | .jsrMemInd aa => Sys2Proof.Machine.execJsrMemInd aa s
  | .rts => Sys2Proof.Machine.execRts s
  -- System control (R300 to R308)
  | .rte => Sys2Proof.Machine.execRte s
  | .sleep => Sys2Proof.Machine.execSleep s
  | .ldcImm imm => Sys2Proof.Machine.execLdcImm imm s
  | .ldcReg rs => Sys2Proof.Machine.execLdcReg rs s
  | .stc rd => Sys2Proof.Machine.execStc rd s
  | .andc imm => Sys2Proof.Machine.execAndc imm s
  | .orc imm => Sys2Proof.Machine.execOrc imm s
  | .xorc imm => Sys2Proof.Machine.execXorc imm s
  | .nop => Sys2Proof.Machine.execNop s
  -- Block transfer (R320)
  | .eepmov => Sys2Proof.Machine.execEepmov s

end Sys2Proof.Machine
end

