-- ==== Sys2Proof/Machine/Cycle.lean ====
section
/-! DEFINITION. One step of the machine (R376): what the environment asks at the boundary, the entry of an exception,
or the fetch, decoding and execution of one instruction. -/

namespace Sys2Proof.Machine

/-! ### The environment at a boundary (R336, R337, R387) -/

/-- What the environment presents at this boundary; when its list has ended, nothing (log 23). -/
def State.boundary (s : State) : Boundary :=
  match s.inputs with
  | b :: _ => b
  | [] => Boundary.quiet

/-- The state whose next boundary is the one after this. -/
def State.pastBoundary (s : State) : State := { s with inputs := s.inputs.tail }

/-- `s in P` and (`nonmaskable(s)` or `CCR.I = 0`): the source is in the acceptable set `A` of R337. -/
def State.acceptable (s : State) (src : IntSource) : Bool :=
  s.boundary.requests.contains src.id && (src.nonmaskable || !CCR.i s.ccr)

/-- The interrupt the running CPU accepts at this boundary: the highest of `A`, when this is an acceptance point and
the environment takes that successor of R337 (D11; log 22, 26). -/
def State.acceptedSource (s : State) : Option IntSource :=
  if !s.holdOff && s.boundary.accept then s.chip.sources.find? s.acceptable else none

/-- The interrupt that ends the power-down state: the highest of `A ∩ WakeSet` (R337, D16). -/
def State.wakeSource (s : State) : Option IntSource :=
  s.chip.sources.find? (fun src => src.wakes && s.acceptable src)

/-! ### Fetch (R375) -/

/-- The bytes of the instruction at `pc`: one word, and the next one when the first byte is that of a 4-byte
instruction (R81, R375). A fetch is a read like any other. -/
def State.fetch (s : State) : Except Refusal (List Byte × State) :=
  match s.loadWord s.pc with
  | .ok (w0, s1) =>
    if isLong (hi8 w0) then
      match s1.loadWord (s.pc + 2#16) with
      | .ok (w1, s2) => .ok ([hi8 w0, lo8 w0, hi8 w1, lo8 w1], s2)
      | .error r => .error r
    else .ok ([hi8 w0, lo8 w0], s1)
  | .error r => .error r

/-! ### The step (R376) -/

/-- Steps 3 and 4 of R376: fetch, decode, execute; bytes that are no instruction are refused (R95). -/
def State.runInstruction (s : State) : Host.Outcome State Fault Refusal :=
  match { s with holdOff := false }.fetch with
  | .ok (bytes, s1) =>
    match decode bytes with
    | .ok (i, _) => exec i s1
    | .error e => .refused (.undefinedCode e)
  | .error r => .refused r

/-- A step of the running CPU to which no reset is requested (R376); `b` is the state past this boundary. -/
def runOrInterrupt (s b : State) : Host.Outcome State Fault Refusal :=
  match s.acceptedSource with
  | some src => outcome (b.takeInterrupt src)
  | none => b.runInstruction

/-- A step of the power-down state to which no reset is requested (R301, R376). -/
def sleepOrInterrupt (s b : State) : Host.Outcome State Fault Refusal :=
  match s.wakeSource with
  | some src => outcome (b.takeInterrupt src)
  | none => .next b

/-- One step of R376. While the reset input is held the CPU is in its reset state and does nothing; its release runs
the reset entry (R330, R334; log 24). -/
def cycle (s : State) : Host.Outcome State Fault Refusal :=
  match s.boundary.reset with
  | .hold => .next { s.pastBoundary with mode := .resetState, holdOff := false }
  | .request => outcome s.pastBoundary.takeReset
  | .inactive =>
    match s.mode with
    | .resetState => outcome s.pastBoundary.takeReset
    | .powerDown => sleepOrInterrupt s s.pastBoundary
    | .programExecution => runOrInterrupt s s.pastBoundary

/-! ### Placing an instruction where the next step fetches it (log 35) -/

/-- The address reads as storage and takes part in a word access. -/
def Chip.fetchable (c : Chip) (a : Word) : Bool :=
  !c.byteOnlyAt a && (c.kindAt a == .ram || c.kindAt a == .rom)

/-- The chip with plain RAM at an even address and the byte after it, where it has no storage there. -/
def Chip.withStorage (c : Chip) (a : Word) : Chip :=
  if c.fetchable a && c.fetchable (a + 1#16) then c
  else { c with memMap := { base := a.toNat, size := 2, kind := .ram, byteOnly := false } :: c.memMap }

/-- A big-endian word put into storage at an even address, whatever the map says there. -/
def State.placeWord (s : State) (a w : Word) : State :=
  ({ s with chip := s.chip.withStorage a }.poke a (hi8 w)).poke (a + 1#16) (lo8 w)

/-- What the environment presents, with nothing asked of the CPU at the next boundary. -/
def quietNext (inputs : List Boundary) : List Boundary :=
  match inputs with
  | [] => []
  | _ :: rest => Boundary.quiet :: rest

/-- Two words of code at PC, of a CPU that is executing instructions and is asked for nothing else. -/
def State.placeCode (s : State) (p : Word × Word) : State :=
  let t := { s with mode := .programExecution, inputs := quietNext s.inputs }
  (t.placeWord (evenAddr t.pc) p.1).placeWord (evenAddr (t.pc + 2#16)) p.2

end Sys2Proof.Machine
end

