-- ==== Sys2Proof/Machine/Step.lean ====
section
/-! DEFINITION. The step of the machine and the interface that puts one instruction where the step fetches it. -/

namespace Sys2Proof.Machine

/-- One step (R376). -/
def step (s : State) : Host.Outcome State Fault Refusal := cycle s

/-- `s` with the instruction whose bits are `w` (numbered as spec/opcode_table.json numbers them) where the next step
fetches (log 35). -/
def State.withFetchWord (s : State) (nbits w : Nat) : State := s.placeCode (tableCode nbits w)

end Sys2Proof.Machine
end

