-- ==== Sys2Proof/Safety.lean ====
section
/-! DEFINITION. The terms claims are stated in: which chips the spec allows, the invariant of a run, what a safe run
is, and what a step leaves as it was. -/

namespace Sys2Proof

/-- The two bytes of a 16-bit register (R21). -/
def Reg16.bytes (n : Reg16) : List Reg8 := [.hi n, .lo n]

namespace Machine

/-! ### Chips and the invariant -/

/-- The vector table entry of an interrupt source: even, in H'0002 to H'00FE (R333, R336). -/
def IntSource.vectorOk (src : IntSource) : Bool :=
  !src.vector.getLsbD 0 && decide (0x0002#16 ≤ src.vector) && decide (src.vector ≤ 0x00FE#16)

/-- Sources in the order of their priority: distinct ids, every nonmaskable one above every maskable one (R336). -/
def sourcesOk (sources : List IntSource) : Bool :=
  match sources with
  | [] => true
  | src :: rest =>
    src.vectorOk && rest.all (fun other => src.id != other.id && (src.nonmaskable || !other.nonmaskable)) &&
      sourcesOk rest

/-- A chip as R9, R333 and R336 describe one. -/
def Chip.wf (c : Chip) : Bool := !c.resetVector.getLsbD 0 && sourcesOk c.sources

/-- What holds of every state a run reaches: memory is in canonical form (R50), bit 0 of PC is 0 (R28), only a running
CPU can be at the boundary right after a reset (R334), and the chip is one the spec allows. -/
structure State.Inv (s : State) : Prop where
  memory : Memory.wf s.mem = true
  pcEven : s.pc.getLsbD 0 = false
  holdOffRuns : s.holdOff = true → s.mode = .programExecution
  chipOk : s.chip.wf = true

/-! ### Safe runs -/

/-- The step goes on: it neither faults nor refuses. -/
def State.Steps (s : State) : Prop := ∃ t, step s = .next t

/-- `k` steps go on. -/
def State.RunsFor (k : Nat) (s : State) : Prop := ∃ t, Sys2Proof.core.run k s = .next t

/-! ### What an instruction leaves as it was -/

/-- Every byte register outside the list is unchanged; a 16-bit register is its two bytes (R21). -/
def State.KeepsRegsBut (s t : State) (changed : List Reg8) : Prop :=
  ∀ r, r ∉ changed → t.regB r = s.regB r

/-- Every byte of storage outside the list is unchanged. -/
def State.KeepsMemBut (s t : State) (changed : List Word) : Prop :=
  ∀ a, a ∉ changed → t.peek a = s.peek a

/-- The operation state, the chip and the environment's boundaries are unchanged. -/
def State.KeepsControl (s t : State) : Prop :=
  t.mode = s.mode ∧ t.holdOff = s.holdOff ∧ t.chip = s.chip ∧ t.inputs = s.inputs

/-- The device answers still to come, the record of events and the count of free values are those of `e`. -/
def State.KeepsEnv (e t : State) : Prop :=
  t.deviceIn = e.deviceIn ∧ t.envLog = e.envLog ∧ t.draws = e.draws

/-- From `s` to `t`, registers and storage are unchanged outside the two lists, and so is everything else but PC and
CCR; what passed between the CPU and its environment is as in `e` (the state after the instruction's reads, or `s`). -/
def State.KeepsAllBut (s t : State) (regs : List Reg8) (mem : List Word) (e : State) : Prop :=
  s.KeepsRegsBut t regs ∧ s.KeepsMemBut t mem ∧ s.KeepsControl t ∧ e.KeepsEnv t

/-- The five flags of `new` are those given; the mask bit I and the user bits are those of `old` (R31, R35). -/
def CCR.Becomes (old new : Byte) (h n z v c : Bool) : Prop :=
  CCR.i new = CCR.i old ∧ CCR.u6 new = CCR.u6 old ∧ CCR.u4 new = CCR.u4 old ∧
    CCR.h new = h ∧ CCR.n new = n ∧ CCR.z new = z ∧ CCR.v new = v ∧ CCR.c new = c

end Machine

end Sys2Proof
end

