-- ==== Sys2Proof/Certificates/Slice0/Obligations.lean ====
section
/-! DEFINITION. The statements for the provers, one `Obligations.<Name>` each, and the terms they share. A statement
about an instruction says its result, its flags, that it goes on, and its frame; `encode` clauses give the encoding the
same rule states, nibble by nibble. PC loses bit 0 at every write (R28). -/

namespace Sys2Proof.Machine

/-! ### Shared terms -/

/-- The nibble `0xxx`. -/
def nib0 (x : BitVec 3) : BitVec 4 := 0#1 ++ x

/-- The nibble `1xxx`. -/
def nib1 (x : BitVec 3) : BitVec 4 := 1#1 ++ x

/-- The instruction goes on, with `v` in the byte register `rd`, PC after its `len` bytes and the five flags as given;
nothing else changes. -/
def State.WritesByte (s : State) (o : Host.Outcome State Fault Refusal) (len : Word) (rd : Reg8) (v : Byte)
    (h n z ov c : Bool) : Prop :=
  ∃ t, o = .next t ∧ t.regB rd = v ∧ t.pc = (s.pc + len) &&& 0xFFFE#16 ∧ CCR.Becomes s.ccr t.ccr h n z ov c ∧
    s.KeepsAllBut t [rd] [] s

/-- As `WritesByte`, for a word register: just its two bytes change. -/
def State.WritesWord (s : State) (o : Host.Outcome State Fault Refusal) (len : Word) (rd : Reg16) (v : Word)
    (h n z ov c : Bool) : Prop :=
  ∃ t, o = .next t ∧ t.reg rd = v ∧ t.pc = (s.pc + len) &&& 0xFFFE#16 ∧ CCR.Becomes s.ccr t.ccr h n z ov c ∧
    s.KeepsAllBut t rd.bytes [] s

/-- The instruction goes on, PC after its `len` bytes, the five flags as given; nothing else changes but what the read that
led to the state `e` did. -/
def State.WritesFlags (s : State) (o : Host.Outcome State Fault Refusal) (len : Word) (e : State) (h n z ov c : Bool) :
    Prop :=
  ∃ t, o = .next t ∧ t.pc = (s.pc + len) &&& 0xFFFE#16 ∧ CCR.Becomes s.ccr t.ccr h n z ov c ∧ s.KeepsAllBut t [] [] e

/-- The instruction goes on with PC at `target` (bit 0 dropped); nothing else changes but what the read that led to
`e` did. -/
def State.GoesTo (s : State) (o : Host.Outcome State Fault Refusal) (target : Word) (e : State) : Prop :=
  ∃ t, o = .next t ∧ t.pc = target &&& 0xFFFE#16 ∧ t.ccr = s.ccr ∧ s.KeepsAllBut t [] [] e

/-- The word whose upper byte is read at the even address below or at `a` and whose lower byte is read after it, with
the state after both reads (R54, R55, R57). That a device sees the upper byte's read first is the choice D8 (log 11); what
an unmapped address or a device with no answer listed gives is a free value (D7, log 9, 10). -/
def State.twoBytes (s : State) (a : Word) : Word × State :=
  let upper := s.loadByte (a &&& 0xFFFE#16)
  let lower := upper.2.loadByte ((a &&& 0xFFFE#16) + 1#16)
  (upper.1 ++ lower.1, lower.2)

/-- An instruction of `len` bytes may store at `a`: not into the four bytes after it, or where a write has no effect
(R71). -/
def State.ClearOfPrefetch (s : State) (len a : Word) : Prop :=
  4 ≤ (a - (s.pc + len)).toNat ∨ s.chip.kindAt a = .rom ∨ s.chip.kindAt a = .unmapped

/-- Both bytes of the word at `a` are clear of the prefetched instruction. -/
def State.WordClearOfPrefetch (s : State) (len a : Word) : Prop :=
  s.ClearOfPrefetch len (a &&& 0xFFFE#16) ∧ s.ClearOfPrefetch len ((a &&& 0xFFFE#16) + 1#16)

/-- From `e` (the state after an instruction's reads) to `t`, just the byte at `a` is written with `v` (R56, R64): RAM
stores it, a device is handed it. That ROM and unmapped addresses drop it is the choice D7 (log 9). -/
def State.StoredByte (e t : State) (a : Word) (v : Byte) : Prop :=
  (∀ x, x ≠ a → t.peek x = e.peek x) ∧ (e.chip.kindAt a = .ram → t.peek a = v) ∧
    (e.chip.kindAt a ≠ .ram → t.peek a = e.peek a) ∧ (e.putByte a v).KeepsEnv t

/-- From `e` to `t`, just the word at `a` is written with `v`, upper byte at the even address (R54, R56, R57). That a
device is handed the upper byte first is the choice D8 (log 11); that ROM and unmapped addresses drop their byte is the
choice D7 (log 9). -/
def State.StoredWord (e t : State) (a v : Word) : Prop :=
  (∀ x, x ≠ a &&& 0xFFFE#16 → x ≠ (a &&& 0xFFFE#16) + 1#16 → t.peek x = e.peek x) ∧
    (e.chip.kindAt (a &&& 0xFFFE#16) = .ram → t.peek (a &&& 0xFFFE#16) = v.extractLsb' 8 8) ∧
    (e.chip.kindAt ((a &&& 0xFFFE#16) + 1#16) = .ram → t.peek ((a &&& 0xFFFE#16) + 1#16) = v.extractLsb' 0 8) ∧
    (e.chip.kindAt (a &&& 0xFFFE#16) ≠ .ram → t.peek (a &&& 0xFFFE#16) = e.peek (a &&& 0xFFFE#16)) ∧
    (e.chip.kindAt ((a &&& 0xFFFE#16) + 1#16) ≠ .ram →
      t.peek ((a &&& 0xFFFE#16) + 1#16) = e.peek ((a &&& 0xFFFE#16) + 1#16)) ∧
    ((e.putByte (a &&& 0xFFFE#16) (v.extractLsb' 8 8)).putByte ((a &&& 0xFFFE#16) + 1#16) (v.extractLsb' 0 8)).KeepsEnv t

/-- `MOV.B` of the byte at `ea` into `rd`: what the read answers, a free value at an unmapped address (D7, log 9). -/
def State.LoadsByte (s : State) (o : Host.Outcome State Fault Refusal) (len ea : Word) (rd : Reg8) : Prop :=
  ∃ t, o = .next t ∧ t.regB rd = (s.loadByte ea).1 ∧ t.pc = (s.pc + len) &&& 0xFFFE#16 ∧
    CCR.Becomes s.ccr t.ccr (CCR.h s.ccr) (s.loadByte ea).1.msb ((s.loadByte ea).1 == 0#8) false (CCR.c s.ccr) ∧
    s.KeepsAllBut t [rd] [] (s.loadByte ea).2

/-- `MOV.W` of the word at `ea` into `rd`. -/
def State.LoadsWord (s : State) (o : Host.Outcome State Fault Refusal) (len ea : Word) (rd : Reg16) : Prop :=
  ∃ t, o = .next t ∧ t.reg rd = (s.twoBytes ea).1 ∧ t.pc = (s.pc + len) &&& 0xFFFE#16 ∧
    CCR.Becomes s.ccr t.ccr (CCR.h s.ccr) (s.twoBytes ea).1.msb ((s.twoBytes ea).1 == 0#16) false (CCR.c s.ccr) ∧
    s.KeepsAllBut t rd.bytes [] (s.twoBytes ea).2

/-- `MOV.B` of `v` to `ea`. -/
def State.StoresByte (s : State) (o : Host.Outcome State Fault Refusal) (len ea : Word) (v : Byte) : Prop :=
  ∃ t, o = .next t ∧ t.pc = (s.pc + len) &&& 0xFFFE#16 ∧
    CCR.Becomes s.ccr t.ccr (CCR.h s.ccr) v.msb (v == 0#8) false (CCR.c s.ccr) ∧
    s.KeepsRegsBut t [] ∧ s.KeepsControl t ∧ s.StoredByte t ea v

/-- `MOV.W` of `v` to `ea`. -/
def State.StoresWord (s : State) (o : Host.Outcome State Fault Refusal) (len ea v : Word) : Prop :=
  ∃ t, o = .next t ∧ t.pc = (s.pc + len) &&& 0xFFFE#16 ∧
    CCR.Becomes s.ccr t.ccr (CCR.h s.ccr) v.msb (v == 0#16) false (CCR.c s.ccr) ∧
    s.KeepsRegsBut t [] ∧ s.KeepsControl t ∧ s.StoredWord t ea v

/-- A store of the word `v` with pre-decrement of `rm`. -/
def State.StoresWordBelow (s : State) (o : Host.Outcome State Fault Refusal) (rm : Reg16) (v : Word) : Prop :=
  ∃ t, o = .next t ∧ t.pc = (s.pc + 2#16) &&& 0xFFFE#16 ∧ t.reg rm = s.reg rm - 2#16 ∧
    CCR.Becomes s.ccr t.ccr (CCR.h s.ccr) v.msb (v == 0#16) false (CCR.c s.ccr) ∧
    s.KeepsRegsBut t rm.bytes ∧ s.KeepsControl t ∧ s.StoredWord t (s.reg rm - 2#16) v

/-- A load of a word with post-increment of `rm`. -/
def State.LoadsWordUp (s : State) (o : Host.Outcome State Fault Refusal) (rm rd : Reg16) : Prop :=
  ∃ t, o = .next t ∧ t.reg rd = (s.twoBytes (s.reg rm)).1 ∧ t.reg rm = s.reg rm + 2#16 ∧
    t.pc = (s.pc + 2#16) &&& 0xFFFE#16 ∧
    CCR.Becomes s.ccr t.ccr (CCR.h s.ccr) (s.twoBytes (s.reg rm)).1.msb ((s.twoBytes (s.reg rm)).1 == 0#16) false
      (CCR.c s.ccr) ∧
    s.KeepsAllBut t (rm.bytes ++ rd.bytes) [] (s.twoBytes (s.reg rm)).2

/-- Bit `k` of `new` is `g` of bit `k` of `old`; the other bits are those of `old`. -/
def BitChanged (k : Nat) (g : Bool → Bool) (old new : Byte) : Prop :=
  ∀ i, i < 8 → new.getLsbD i = if i = k then g (old.getLsbD i) else old.getLsbD i

/-- The instruction changes bit `k` of the byte register `rd`, and nothing else but PC. -/
def State.ChangesRegBit (s : State) (o : Host.Outcome State Fault Refusal) (rd : Reg8) (k : Nat) (g : Bool → Bool) :
    Prop :=
  ∃ t, o = .next t ∧ BitChanged k g (s.regB rd) (t.regB rd) ∧ t.pc = (s.pc + 2#16) &&& 0xFFFE#16 ∧ t.ccr = s.ccr ∧
    s.KeepsAllBut t [rd] [] s

/-- The instruction reads the byte at `ea`, changes its bit `k`, writes it back, and does nothing else but move PC. -/
def State.ChangesMemBit (s : State) (o : Host.Outcome State Fault Refusal) (ea : Word) (k : Nat) (g : Bool → Bool) :
    Prop :=
  s.ClearOfPrefetch 4#16 ea →
    ∃ t b, o = .next t ∧ BitChanged k g (s.loadByte ea).1 b ∧ (s.loadByte ea).2.StoredByte t ea b ∧
      t.pc = (s.pc + 4#16) &&& 0xFFFE#16 ∧ t.ccr = s.ccr ∧ s.KeepsRegsBut t [] ∧ s.KeepsControl t

/-- The instruction sets Z from bit `k` of the byte `v`, Z = 1 for a 0. -/
def State.TestsBit (s : State) (o : Host.Outcome State Fault Refusal) (len : Word) (v : Byte × State) (k : Nat) : Prop :=
  s.WritesFlags o len v.2 (CCR.h s.ccr) (CCR.n s.ccr) (!v.1.getLsbD k) (CCR.v s.ccr) (CCR.c s.ccr)

/-- The instruction sets C to `g` of the old C and bit `k` of the byte `v`. -/
def State.CombinesCarry (s : State) (o : Host.Outcome State Fault Refusal) (len : Word) (v : Byte × State) (k : Nat)
    (g : Bool → Bool → Bool) : Prop :=
  s.WritesFlags o len v.2 (CCR.h s.ccr) (CCR.n s.ccr) (CCR.z s.ccr) (CCR.v s.ccr) (g (CCR.c s.ccr) (v.1.getLsbD k))

/-- A conditional branch: to the next instruction plus the displacement when the condition holds, else to the next
instruction. -/
def State.Branches (s : State) (o : Host.Outcome State Fault Refusal) (disp : Byte) (cond : Prop) : Prop :=
  (cond → s.GoesTo o (s.pc + 2#16 + disp.signExtend 16) s) ∧ (¬cond → s.GoesTo o (s.pc + 2#16) s)

/-- A call: `next` is stored below SP, SP goes down by 2, PC is at `target`; `e` is the state after the reads. -/
def State.CallsTo (s : State) (o : Host.Outcome State Fault Refusal) (len target : Word) (e : State) : Prop :=
  ∃ t, o = .next t ∧ t.pc = target &&& 0xFFFE#16 ∧ t.reg .r7 = s.reg .r7 - 2#16 ∧ t.ccr = s.ccr ∧
    s.KeepsRegsBut t Reg16.r7.bytes ∧ s.KeepsControl t ∧ e.StoredWord t (s.reg .r7 - 2#16) (s.pc + len)

/-- A word may be pushed by an instruction of `len` bytes. -/
def State.CanPush (s : State) (len : Word) : Prop :=
  s.chip.wordOk (s.reg .r7 - 2#16) = true ∧ s.WordClearOfPrefetch len (s.reg .r7 - 2#16)

/-- The address reads as memory. -/
def State.Storage (s : State) (a : Word) : Prop := s.chip.kindAt a = .ram ∨ s.chip.kindAt a = .rom

/-- The two bytes of the word at `a` are memory that takes a word access. -/
def State.WordStorage (s : State) (a : Word) : Prop :=
  s.chip.wordOk a = true ∧ s.Storage (a &&& 0xFFFE#16) ∧ s.Storage ((a &&& 0xFFFE#16) + 1#16)

/-- The two bytes of the word at `a` are RAM that takes a word access. -/
def State.WordRam (s : State) (a : Word) : Prop :=
  s.chip.wordOk a = true ∧ s.chip.kindAt (a &&& 0xFFFE#16) = .ram ∧ s.chip.kindAt ((a &&& 0xFFFE#16) + 1#16) = .ram

/-- The word that storage holds at `a`. -/
def State.peekWord (s : State) (a : Word) : Word := s.peek (a &&& 0xFFFE#16) ++ s.peek ((a &&& 0xFFFE#16) + 1#16)

/-- `src` is the highest source that is requested by `b`, not masked by CCR, and satisfies `p`. -/
def State.HighestRequest (s : State) (b : Boundary) (p : IntSource → Prop) (src : IntSource) : Prop :=
  ∃ above below, s.chip.sources = above ++ src :: below ∧
    (src.id ∈ b.requests ∧ (src.nonmaskable = true ∨ CCR.i s.ccr = false) ∧ p src) ∧
    ∀ x ∈ above, ¬(x.id ∈ b.requests ∧ (x.nonmaskable = true ∨ CCR.i s.ccr = false) ∧ p x)

/-- Stack and vector are memory: an interrupt of this source can be entered without meeting a device. -/
def State.CanEnter (s : State) (src : IntSource) : Prop :=
  s.WordRam (s.reg .r7 - 2#16) ∧ s.WordRam (s.reg .r7 - 4#16) ∧ s.WordStorage src.vector

/-- The interrupt entry of R338: PC and CCR on the stack, I set, PC from the vector, the source told. -/
def State.EntersInterrupt (s : State) (o : Host.Outcome State Fault Refusal) (src : IntSource) : Prop :=
  ∃ t, o = .next t ∧ t.reg .r7 = s.reg .r7 - 4#16 ∧ s.KeepsRegsBut t Reg16.r7.bytes ∧
    t.peekWord (s.reg .r7 - 2#16) = s.pc ∧ t.peek ((s.reg .r7 - 4#16) &&& 0xFFFE#16) = s.ccr ∧
    s.KeepsMemBut t [(s.reg .r7 - 2#16) &&& 0xFFFE#16, ((s.reg .r7 - 2#16) &&& 0xFFFE#16) + 1#16,
      (s.reg .r7 - 4#16) &&& 0xFFFE#16, ((s.reg .r7 - 4#16) &&& 0xFFFE#16) + 1#16] ∧
    t.pc = t.peekWord src.vector &&& 0xFFFE#16 ∧
    CCR.i t.ccr = true ∧ (∀ k, k < 7 → t.ccr.getLsbD k = s.ccr.getLsbD k) ∧
    t.mode = .programExecution ∧ t.holdOff = false ∧ t.chip = s.chip ∧ t.inputs = s.inputs.tail ∧
    t.deviceIn = s.deviceIn ∧ t.envLog = .accepted src.id :: s.envLog

end Sys2Proof.Machine

open Sys2Proof Sys2Proof.Machine

/-! ### Encoding and the step -/

/-- Decoding the code of an instruction gives it back, with whatever bytes follow (R80 to R92). Every operand at every
value; the two spellings R107 gives to POP and PUSH apart. -/
def Obligations.DecodeOfEncode : Prop :=
  ∀ (i : Instr) (rest : List Byte), i.wellFormed = true → decode (encode i ++ rest) = .ok (i, rest)

/-- Whatever is decoded is well-formed and is spelled by exactly the bytes its encoding has: no bit of a code is
dropped, no other code means the same (R96). -/
def Obligations.EncodeOfDecode : Prop :=
  ∀ (bytes rest : List Byte) (i : Instr), decode bytes = .ok (i, rest) → i.wellFormed = true ∧ bytes = encode i ++ rest

/-- A first byte that the map of R93 leaves empty starts no instruction, and those are the only ones (R95; that the
model then refuses is its choice, D1, log 14). -/
def Obligations.UndefinedFirstBytesRejected : Prop :=
  ∀ (b0 b1 : Byte) (rest : List Byte), decode (b0 :: b1 :: rest) = .error (.undefinedFirstByte b0) ↔
    b0 ∈ [0x52#8, 0x53#8, 0x57#8, 0x58#8, 0x5C#8, 0x64#8, 0x65#8, 0x66#8, 0x78#8, 0x7A#8]

/-- A few words, written out from the encodings of R85 to R89, decode to what they stand for; codes 0 to 7 name R0H to
R7H and 8 to 15 name R0L to R7L (R84). A sanity statement. -/
def Obligations.SampleWordsDecode : Prop :=
  decodeTableWord 16 0x0C92 = some (.movBReg (.lo .r1) (.hi .r2)) ∧
    decodeTableWord 16 0x6D73 = some (.pop .r3) ∧
    decodeTableWord 32 0x6E230010 = some (.movBDisp 0x0010#16 .r2 (.hi .r3)) ∧
    decodeTableWord 16 0x8801 = some (.addBImm 0x01#8 (.lo .r0)) ∧
    decodeTableWord 16 0x5190 = some (.divxu (.lo .r1) .r0) ∧
    decodeTableWord 16 0x1588 = some (.xorReg (.lo .r0) (.lo .r0)) ∧
    decodeTableWord 16 0x1308 = some (.rotxr (.lo .r0)) ∧
    decodeTableWord 32 0x7EC077F0 = some (.bildAbs 7#3 0xC0#8) ∧
    decodeTableWord 16 0x40FE = some (.bra 0xFE#8) ∧
    decodeTableWord 32 0x5E000200 = some (.jsrAbs 0x0200#16) ∧
    decodeTableWord 16 0x5670 = some .rte ∧
    decodeTableWord 32 0x7B5C598F = some .eepmov

/-- A step of a running CPU that takes no exception runs the instruction its fetch reads and its decoder finds
(R376). -/
def Obligations.StepRunsDecodedInstruction : Prop :=
  ∀ (s s1 : State) (bytes rest : List Byte) (i : Instr), s.mode = .programExecution →
    s.boundary.reset = .inactive → s.acceptedSource = none →
    State.fetch { s with inputs := s.inputs.tail, holdOff := false } = .ok (bytes, s1) →
    decode bytes = .ok (i, rest) → step s = exec i s1

/-- When memory at PC holds the code of an instruction, a step that takes no exception is that instruction's effect,
after the boundary has passed: instructions are fetched by words, from the even address at PC (R375, R376). -/
def Obligations.StepRunsInstructionInMemory : Prop :=
  ∀ (s : State) (rest : List Byte) (i : Instr), s.mode = .programExecution → s.boundary.reset = .inactive →
    s.acceptedSource = none → s.WordStorage s.pc →
    (isLong (s.peek (s.pc &&& 0xFFFE#16)) = true → s.WordStorage (s.pc + 2#16)) →
    decode [s.peek (s.pc &&& 0xFFFE#16), s.peek ((s.pc &&& 0xFFFE#16) + 1#16),
      s.peek ((s.pc + 2#16) &&& 0xFFFE#16), s.peek (((s.pc + 2#16) &&& 0xFFFE#16) + 1#16)] = .ok (i, rest) →
    step s = exec i { s with inputs := s.inputs.tail, holdOff := false }

/-- A step that finds no instruction is refused by name (R95, R376; the refusal is the model's choice, D1, D2,
log 14). -/
def Obligations.StepRefusesUndefinedCode : Prop :=
  ∀ (s s1 : State) (bytes : List Byte) (e : DecodeError), s.mode = .programExecution →
    s.boundary.reset = .inactive → s.acceptedSource = none →
    State.fetch { s with inputs := s.inputs.tail, holdOff := false } = .ok (bytes, s1) →
    decode bytes = .error e → step s = .refused (.undefinedCode e)

/-! ### Registers and memory -/

/-- A 16-bit register is its two 8-bit registers, RnH the upper one; a write to one byte leaves every other byte
register alone, a write to a pair changes just its two bytes (R21). -/
def Obligations.RegisterBytesAndPairs : Prop :=
  ∀ (s : State) (n : Reg16) (r : Reg8) (b : Byte) (w : Word),
    s.reg n = s.regB (.hi n) ++ s.regB (.lo n) ∧
      (s.setRegB r b).regB r = b ∧ (∀ x, x ≠ r → (s.setRegB r b).regB x = s.regB x) ∧
      (s.setReg n w).reg n = w ∧ (s.setReg n w).regB (.hi n) = w.extractLsb' 8 8 ∧
      (s.setReg n w).regB (.lo n) = w.extractLsb' 0 8 ∧
      (∀ x, x ≠ .hi n → x ≠ .lo n → (s.setReg n w).regB x = s.regB x)

/-- A byte write to RAM is read back and changes no other byte; a device is handed its byte; ROM and unmapped addresses
drop it (R56, R64; dropping is D7, log 9). Memory stays in canonical form. -/
def Obligations.ByteWrites : Prop :=
  ∀ (s : State) (a : Word) (v : Byte),
    (∀ x, x ≠ a → (s.putByte a v).peek x = s.peek x) ∧
      (s.chip.kindAt a = .ram → (s.putByte a v).peek a = v ∧ (s.putByte a v).loadByte a = (v, s.putByte a v) ∧
        s.KeepsEnv (s.putByte a v)) ∧
      (s.chip.kindAt a = .device → s.putByte a v = { s with envLog := .deviceWrite a v :: s.envLog }) ∧
      (s.chip.kindAt a = .rom ∨ s.chip.kindAt a = .unmapped → s.putByte a v = s) ∧
      (Memory.wf s.mem = true → Memory.wf (s.putByte a v).mem = true) ∧
      s.KeepsRegsBut (s.putByte a v) [] ∧ s.KeepsControl (s.putByte a v) ∧ (s.putByte a v).pc = s.pc ∧
      (s.putByte a v).ccr = s.ccr

/-- A byte read: memory answers what it holds and nothing changes; a device answers what the environment has listed
and the read is recorded; an unlisted answer and an unmapped address are free values (R55, R64; D7, log 9, 10). -/
def Obligations.ByteReads : Prop :=
  ∀ (s : State) (a : Word),
    (s.chip.kindAt a = .ram ∨ s.chip.kindAt a = .rom → s.loadByte a = (s.peek a, s)) ∧
      (s.chip.kindAt a = .device → ∀ v rest, s.deviceIn = v :: rest →
        s.loadByte a = (v, { s with deviceIn := rest, envLog := .deviceRead a v :: s.envLog })) ∧
      (s.chip.kindAt a = .device → s.deviceIn = [] →
        (s.loadByte a).2 = { s with draws := s.draws + 1, envLog := .deviceRead a (s.loadByte a).1 :: s.envLog }) ∧
      (s.chip.kindAt a = .unmapped → (s.loadByte a).2 = { s with draws := s.draws + 1 })

/-- A word access ignores bit 0 of its address, never faults, and has its upper byte at the even address (R54, R57,
R58). That it is the two byte accesses, upper byte first, also where a device sees their order, is the model's choice
(D8, log 11; unsafe there). -/
def Obligations.WordAccesses : Prop :=
  ∀ (s : State) (a v : Word), s.chip.wordOk a = true →
    s.loadWord a = .ok (s.twoBytes a) ∧ s.loadWord (a ||| 1#16) = s.loadWord (a &&& 0xFFFE#16) ∧
      s.putWord a v =
        .ok ((s.putByte (a &&& 0xFFFE#16) (v.extractLsb' 8 8)).putByte ((a &&& 0xFFFE#16) + 1#16) (v.extractLsb' 0 8)) ∧
      s.putWord (a ||| 1#16) v = s.putWord (a &&& 0xFFFE#16) v

/-- Every instruction that accesses a word in a region marked byte-only, as data or by its fetch, is refused by name
(R61; the refusal is the model's choice, D23, log 12). A store is taken clear of the prefetched instruction, into which
a store is refused under a name of its own (D9, log 13). -/
def Obligations.WordAccessToByteOnlyRefused : Prop :=
  ∀ (s : State) (rm rd rs : Reg16) (disp aa : Word) (a8 d8 : Byte),
    (s.chip.wordOk (s.reg rm) = false →
      exec (.movWInd rm rd) s = .refused .wordAccessByteOnly ∧
        (rd ≠ rm → exec (.movWPostInc rm rd) s = .refused .wordAccessByteOnly) ∧
        (s.WordClearOfPrefetch 2#16 (s.reg rm) → exec (.movWToInd rs rm) s = .refused .wordAccessByteOnly)) ∧
    (s.chip.wordOk (s.reg rm + disp) = false →
      exec (.movWDisp disp rm rd) s = .refused .wordAccessByteOnly ∧
        (s.WordClearOfPrefetch 4#16 (s.reg rm + disp) →
          exec (.movWToDisp rs disp rm) s = .refused .wordAccessByteOnly)) ∧
    (s.chip.wordOk aa = false →
      exec (.movWAbs16 aa rd) s = .refused .wordAccessByteOnly ∧
        (s.WordClearOfPrefetch 4#16 aa → exec (.movWToAbs16 rs aa) s = .refused .wordAccessByteOnly)) ∧
    (s.chip.wordOk (s.reg rm - 2#16) = false → s.WordClearOfPrefetch 2#16 (s.reg rm - 2#16) →
      exec (.movWPreDec rs rm) s = .refused .wordAccessByteOnly) ∧
    (s.chip.wordOk (s.reg .r7) = false →
      (rd ≠ .r7 → exec (.pop rd) s = .refused .wordAccessByteOnly) ∧ exec .rts s = .refused .wordAccessByteOnly) ∧
    (s.chip.wordOk (s.reg .r7) = false ∨ s.chip.wordOk (s.reg .r7 + 2#16) = false →
      exec .rte s = .refused .wordAccessByteOnly) ∧
    (s.chip.wordOk (s.reg .r7 - 2#16) = false →
      (s.WordClearOfPrefetch 2#16 (s.reg .r7 - 2#16) →
        exec (.push rs) s = .refused .wordAccessByteOnly ∧ exec (.bsr d8) s = .refused .wordAccessByteOnly ∧
          exec (.jsrInd rm) s = .refused .wordAccessByteOnly ∧
          exec (.jsrMemInd a8) s = .refused .wordAccessByteOnly) ∧
      (s.WordClearOfPrefetch 4#16 (s.reg .r7 - 2#16) → exec (.jsrAbs aa) s = .refused .wordAccessByteOnly)) ∧
    (s.chip.wordOk (a8.setWidth 16) = false →
      exec (.jmpMemInd a8) s = .refused .wordAccessByteOnly ∧ exec (.jsrMemInd a8) s = .refused .wordAccessByteOnly) ∧
    (s.mode = .programExecution → s.boundary.reset = .inactive → s.acceptedSource = none →
      s.chip.wordOk s.pc = false ∨
        isLong (s.loadByte (s.pc &&& 0xFFFE#16)).1 = true ∧ s.chip.wordOk (s.pc + 2#16) = false →
      step s = .refused .wordAccessByteOnly)

/-! ### Data transfer -/

/-- `MOV` between registers and of immediate data: the value, N and Z from it, V cleared, H and C kept (R120 to R122,
R133, R134). -/
def Obligations.MovRegisterAndImmediate : Prop :=
  ∀ (s : State) (bs bd : Reg8) (ws wd : Reg16) (i8 : Byte) (i16 : Word),
    (encode (.movBReg bs bd) = [0x0C#8, bs.code ++ bd.code] ∧
      s.WritesByte (exec (.movBReg bs bd) s) 2#16 bd (s.regB bs) (CCR.h s.ccr) (s.regB bs).msb (s.regB bs == 0#8) false
        (CCR.c s.ccr)) ∧
    (encode (.movBImm i8 bd) = [0xF#4 ++ bd.code, i8] ∧
      s.WritesByte (exec (.movBImm i8 bd) s) 2#16 bd i8 (CCR.h s.ccr) i8.msb (i8 == 0#8) false (CCR.c s.ccr)) ∧
    (encode (.movWReg ws wd) = [0x0D#8, nib0 ws.code ++ nib0 wd.code] ∧
      s.WritesWord (exec (.movWReg ws wd) s) 2#16 wd (s.reg ws) (CCR.h s.ccr) (s.reg ws).msb (s.reg ws == 0#16) false
        (CCR.c s.ccr)) ∧
    (encode (.movWImm i16 wd) = [0x79#8, 0x0#4 ++ nib0 wd.code, i16.extractLsb' 8 8, i16.extractLsb' 0 8] ∧
      s.WritesWord (exec (.movWImm i16 wd) s) 4#16 wd i16 (CCR.h s.ccr) i16.msb (i16 == 0#16) false (CCR.c s.ccr))

/-- `MOV.B` from memory, each addressing mode but post-increment: what the byte read at the effective address answers
goes to Rd, also when Rd is a half of the address register (R98 to R103, R120, R123, R124, R126, R127). -/
def Obligations.MovByteLoads : Prop :=
  ∀ (s : State) (rm : Reg16) (rd : Reg8) (disp aa : Word) (a8 : Byte),
    s.LoadsByte (exec (.movBInd rm rd) s) 2#16 (s.reg rm) rd ∧
      s.LoadsByte (exec (.movBDisp disp rm rd) s) 4#16 (s.reg rm + disp) rd ∧
      s.LoadsByte (exec (.movBAbs8 a8 rd) s) 2#16 (0xFF00#16 ||| a8.setWidth 16) rd ∧
      s.LoadsByte (exec (.movBAbs16 aa rd) s) 4#16 aa rd

/-- `MOV.W` from memory, each addressing mode but post-increment, wherever a word access is possible (R57, R61, R120,
R135, R136, R138). -/
def Obligations.MovWordLoads : Prop :=
  ∀ (s : State) (rm rd : Reg16) (disp aa : Word),
    (s.chip.wordOk (s.reg rm) = true → s.LoadsWord (exec (.movWInd rm rd) s) 2#16 (s.reg rm) rd) ∧
      (s.chip.wordOk (s.reg rm + disp) = true →
        s.LoadsWord (exec (.movWDisp disp rm rd) s) 4#16 (s.reg rm + disp) rd) ∧
      (s.chip.wordOk aa = true → s.LoadsWord (exec (.movWAbs16 aa rd) s) 4#16 aa rd)

/-- Loads with post-increment, and POP: the loaded value in Rd, the address register up by the operand's size, also from
an odd address (R125, R137, R143). The forms R145 (b) and R146 leave without effect have their own statement. -/
def Obligations.PostIncrementLoads : Prop :=
  ∀ (s : State) (rm : Reg16) (bd : Reg8) (wd : Reg16),
    (rm ≠ .r7 → bd ≠ .hi rm → bd ≠ .lo rm →
      ∃ t, exec (.movBPostInc rm bd) s = .next t ∧ t.regB bd = (s.loadByte (s.reg rm)).1 ∧
        t.reg rm = s.reg rm + 1#16 ∧ t.pc = (s.pc + 2#16) &&& 0xFFFE#16 ∧
        CCR.Becomes s.ccr t.ccr (CCR.h s.ccr) (s.loadByte (s.reg rm)).1.msb ((s.loadByte (s.reg rm)).1 == 0#8) false
          (CCR.c s.ccr) ∧
        s.KeepsAllBut t (bd :: rm.bytes) [] (s.loadByte (s.reg rm)).2) ∧
    (s.chip.wordOk (s.reg rm) = true → wd ≠ rm → s.LoadsWordUp (exec (.movWPostInc rm wd) s) rm wd) ∧
    (s.chip.wordOk (s.reg .r7) = true → wd ≠ .r7 → s.LoadsWordUp (exec (.pop wd) s) .r7 wd)

/-- `MOV.B` to memory, each addressing mode but pre-decrement: just the byte at the effective address is written
(R120, R128, R129, R131, R132). -/
def Obligations.MovByteStores : Prop :=
  ∀ (s : State) (rs : Reg8) (rm : Reg16) (disp aa : Word) (a8 : Byte),
    (s.ClearOfPrefetch 2#16 (s.reg rm) → s.StoresByte (exec (.movBToInd rs rm) s) 2#16 (s.reg rm) (s.regB rs)) ∧
      (s.ClearOfPrefetch 4#16 (s.reg rm + disp) →
        s.StoresByte (exec (.movBToDisp rs disp rm) s) 4#16 (s.reg rm + disp) (s.regB rs)) ∧
      (s.ClearOfPrefetch 2#16 (0xFF00#16 ||| a8.setWidth 16) →
        s.StoresByte (exec (.movBToAbs8 rs a8) s) 2#16 (0xFF00#16 ||| a8.setWidth 16) (s.regB rs)) ∧
      (s.ClearOfPrefetch 4#16 aa → s.StoresByte (exec (.movBToAbs16 rs aa) s) 4#16 aa (s.regB rs))

/-- `MOV.W` to memory, each addressing mode but pre-decrement: just the word at the effective address, bit 0 ignored,
is written (R57, R120, R139, R140, R142). -/
def Obligations.MovWordStores : Prop :=
  ∀ (s : State) (rs rm : Reg16) (disp aa : Word),
    (s.chip.wordOk (s.reg rm) = true → s.WordClearOfPrefetch 2#16 (s.reg rm) →
      s.StoresWord (exec (.movWToInd rs rm) s) 2#16 (s.reg rm) (s.reg rs)) ∧
    (s.chip.wordOk (s.reg rm + disp) = true → s.WordClearOfPrefetch 4#16 (s.reg rm + disp) →
      s.StoresWord (exec (.movWToDisp rs disp rm) s) 4#16 (s.reg rm + disp) (s.reg rs)) ∧
    (s.chip.wordOk aa = true → s.WordClearOfPrefetch 4#16 aa →
      s.StoresWord (exec (.movWToAbs16 rs aa) s) 4#16 aa (s.reg rs))

/-- Stores with pre-decrement, and PUSH: the address register goes down by the operand's size and the store is where it
then points (R130, R141, R144). When the data register is the address register or half of it, the value after the
decrement is stored (R145 a; the spec's own choice D28, log 19). -/
def Obligations.PreDecrementStores : Prop :=
  ∀ (s : State) (bs : Reg8) (rs rm : Reg16),
    (rm ≠ .r7 → s.ClearOfPrefetch 2#16 (s.reg rm - 1#16) →
      ∃ t v, exec (.movBPreDec bs rm) s = .next t ∧
        v = (if bs = .hi rm then (s.reg rm - 1#16).extractLsb' 8 8
          else if bs = .lo rm then (s.reg rm - 1#16).extractLsb' 0 8 else s.regB bs) ∧
        t.reg rm = s.reg rm - 1#16 ∧ t.pc = (s.pc + 2#16) &&& 0xFFFE#16 ∧
        CCR.Becomes s.ccr t.ccr (CCR.h s.ccr) v.msb (v == 0#8) false (CCR.c s.ccr) ∧
        s.KeepsRegsBut t rm.bytes ∧ s.KeepsControl t ∧ s.StoredByte t (s.reg rm - 1#16) v) ∧
    (s.chip.wordOk (s.reg rm - 2#16) = true → s.WordClearOfPrefetch 2#16 (s.reg rm - 2#16) →
      s.StoresWordBelow (exec (.movWPreDec rs rm) s) rm (if rs = rm then s.reg rm - 2#16 else s.reg rs)) ∧
    (s.CanPush 2#16 →
      s.StoresWordBelow (exec (.push rs) s) .r7 (if rs = .r7 then s.reg .r7 - 2#16 else s.reg rs))

/-- POP and PUSH are `MOV.W @R7+, Rd` and `MOV.W Rs, @-R7`: the same codes and the same effect in every state, refusals
included (R107, R143, R144). -/
def Obligations.PopAndPushAreMovW : Prop :=
  ∀ (s : State) (r : Reg16),
    encode (.pop r) = encode (.movWPostInc .r7 r) ∧ exec (.pop r) s = exec (.movWPostInc .r7 r) s ∧
      encode (.push r) = encode (.movWPreDec r .r7) ∧ exec (.push r) s = exec (.movWPreDec r .r7) s

/-- The forms the spec calls `Undefined` are refused by name: byte access with @-R7 or @R7+, and a load with
post-increment into (half of) its own address register (R145 b, R146; the spec's choices D20, D21, log 17, 18). -/
def Obligations.ForbiddenAutoModifyRefused : Prop :=
  ∀ (s : State) (r : Reg8) (rm : Reg16),
    exec (.movBPostInc .r7 r) s = .refused .byteAutoModifySP ∧
      exec (.movBPreDec r .r7) s = .refused .byteAutoModifySP ∧
      (rm ≠ .r7 → exec (.movBPostInc rm (.hi rm)) s = .refused .postIncrementOwnRegister ∧
        exec (.movBPostInc rm (.lo rm)) s = .refused .postIncrementOwnRegister) ∧
      exec (.movWPostInc rm rm) s = .refused .postIncrementOwnRegister ∧
      exec (.pop .r7) s = .refused .postIncrementOwnRegister

/-- A store into the four bytes at the next instruction is refused by name, for every storing form but EEPMOV (its own
statement says when) (R71; the spec's choice D9, log 13). -/
def Obligations.StoreIntoPrefetchedRefused : Prop :=
  ∀ (s : State) (br bn : Reg8) (rs rm : Reg16) (disp aa : Word) (a8 d8 : Byte) (k : BitVec 3),
    (¬s.ClearOfPrefetch 2#16 (s.reg rm) → exec (.movBToInd br rm) s = .refused .storeIntoPrefetched) ∧
    (¬s.ClearOfPrefetch 4#16 (s.reg rm + disp) → exec (.movBToDisp br disp rm) s = .refused .storeIntoPrefetched) ∧
    (¬s.ClearOfPrefetch 2#16 (0xFF00#16 ||| a8.setWidth 16) →
      exec (.movBToAbs8 br a8) s = .refused .storeIntoPrefetched) ∧
    (¬s.ClearOfPrefetch 4#16 aa → exec (.movBToAbs16 br aa) s = .refused .storeIntoPrefetched) ∧
    (rm ≠ .r7 → ¬s.ClearOfPrefetch 2#16 (s.reg rm - 1#16) →
      exec (.movBPreDec br rm) s = .refused .storeIntoPrefetched) ∧
    (¬s.WordClearOfPrefetch 2#16 (s.reg rm) → exec (.movWToInd rs rm) s = .refused .storeIntoPrefetched) ∧
    (¬s.WordClearOfPrefetch 4#16 (s.reg rm + disp) →
      exec (.movWToDisp rs disp rm) s = .refused .storeIntoPrefetched) ∧
    (¬s.WordClearOfPrefetch 4#16 aa → exec (.movWToAbs16 rs aa) s = .refused .storeIntoPrefetched) ∧
    (¬s.WordClearOfPrefetch 2#16 (s.reg rm - 2#16) → exec (.movWPreDec rs rm) s = .refused .storeIntoPrefetched) ∧
    (¬s.WordClearOfPrefetch 2#16 (s.reg .r7 - 2#16) →
      exec (.push rs) s = .refused .storeIntoPrefetched ∧ exec (.bsr d8) s = .refused .storeIntoPrefetched ∧
        exec (.jsrInd rm) s = .refused .storeIntoPrefetched ∧
        (s.chip.wordOk (a8.setWidth 16) = true → exec (.jsrMemInd a8) s = .refused .storeIntoPrefetched)) ∧
    (¬s.WordClearOfPrefetch 4#16 (s.reg .r7 - 2#16) → exec (.jsrAbs aa) s = .refused .storeIntoPrefetched) ∧
    (¬s.ClearOfPrefetch 4#16 (s.reg rm) →
      ∀ i ∈ [Instr.bsetImmInd k rm, .bsetRegInd bn rm, .bclrImmInd k rm, .bclrRegInd bn rm, .bnotImmInd k rm,
        .bnotRegInd bn rm, .bstInd k rm, .bistInd k rm], exec i s = .refused .storeIntoPrefetched) ∧
    (¬s.ClearOfPrefetch 4#16 (0xFF00#16 ||| a8.setWidth 16) →
      ∀ i ∈ [Instr.bsetImmAbs k a8, .bsetRegAbs bn a8, .bclrImmAbs k a8, .bclrRegAbs bn a8, .bnotImmAbs k a8,
        .bnotRegAbs bn a8, .bstAbs k a8, .bistAbs k a8], exec i s = .refused .storeIntoPrefetched)

/-! ### Arithmetic -/

/-- The five flags of the byte sum `a + b + cin` and its value `r` (R160, R161): H a carry out of bit 3, C out of
bit 7, V when the operands have one sign and the result the other. -/
def Sys2Proof.Machine.AddsByte (a b : Byte) (cin : Bool) (r : Byte) (h ov c : Bool) : Prop :=
  r.toNat = (a.toNat + b.toNat + cin.toNat) % 256 ∧
    (h = true ↔ 15 < a.toNat % 16 + b.toNat % 16 + cin.toNat) ∧
    (ov = true ↔ a.msb = b.msb ∧ r.msb ≠ a.msb) ∧ (c = true ↔ 255 < a.toNat + b.toNat + cin.toNat)

/-- The flags of the byte difference `a - b - bin` and its value `r` (R160, R162): H and C are borrows. -/
def Sys2Proof.Machine.SubtractsByte (a b : Byte) (bin : Bool) (r : Byte) (h ov c : Bool) : Prop :=
  (r.toNat + b.toNat + bin.toNat) % 256 = a.toNat ∧
    (h = true ↔ a.toNat % 16 < b.toNat % 16 + bin.toNat) ∧
    (ov = true ↔ a.msb ≠ b.msb ∧ r.msb ≠ a.msb) ∧ (c = true ↔ a.toNat < b.toNat + bin.toNat)

/-- The word sum (R163): H a carry out of bit 11. -/
def Sys2Proof.Machine.AddsWord (a b r : Word) (h ov c : Bool) : Prop :=
  r.toNat = (a.toNat + b.toNat) % 65536 ∧ (h = true ↔ 4095 < a.toNat % 4096 + b.toNat % 4096) ∧
    (ov = true ↔ a.msb = b.msb ∧ r.msb ≠ a.msb) ∧ (c = true ↔ 65535 < a.toNat + b.toNat)

/-- The word difference (R163): H a borrow into bit 11. -/
def Sys2Proof.Machine.SubtractsWord (a b r : Word) (h ov c : Bool) : Prop :=
  (r.toNat + b.toNat) % 65536 = a.toNat ∧ (h = true ↔ a.toNat % 4096 < b.toNat % 4096) ∧
    (ov = true ↔ a.msb ≠ b.msb ∧ r.msb ≠ a.msb) ∧ (c = true ↔ a.toNat < b.toNat)

/-- `ADD.B`, both forms: the sum modulo 256 and its five flags (R161, R164). -/
def Obligations.AddByte : Prop :=
  ∀ (s : State) (imm : Byte) (rs rd : Reg8),
    (encode (.addBImm imm rd) = [0x8#4 ++ rd.code, imm] ∧ ∃ r h ov c, AddsByte (s.regB rd) imm false r h ov c ∧
      s.WritesByte (exec (.addBImm imm rd) s) 2#16 rd r h r.msb (r == 0#8) ov c) ∧
    (encode (.addBReg rs rd) = [0x08#8, rs.code ++ rd.code] ∧ ∃ r h ov c,
      AddsByte (s.regB rd) (s.regB rs) false r h ov c ∧
      s.WritesByte (exec (.addBReg rs rd) s) 2#16 rd r h r.msb (r == 0#8) ov c)

/-- `ADD.W`, `SUB.W` and `CMP.W`: the result modulo 65536 and its five flags; CMP writes no register (R163, R165, R169,
R175). -/
def Obligations.AddSubCmpWord : Prop :=
  ∀ (s : State) (rs rd : Reg16),
    (encode (.addW rs rd) = [0x09#8, nib0 rs.code ++ nib0 rd.code] ∧ ∃ r h ov c,
      AddsWord (s.reg rd) (s.reg rs) r h ov c ∧
      s.WritesWord (exec (.addW rs rd) s) 2#16 rd r h r.msb (r == 0#16) ov c) ∧
    (encode (.subW rs rd) = [0x19#8, nib0 rs.code ++ nib0 rd.code] ∧ ∃ r h ov c,
      SubtractsWord (s.reg rd) (s.reg rs) r h ov c ∧
      s.WritesWord (exec (.subW rs rd) s) 2#16 rd r h r.msb (r == 0#16) ov c) ∧
    (encode (.cmpW rs rd) = [0x1D#8, nib0 rs.code ++ nib0 rd.code] ∧ ∃ r h ov c,
      SubtractsWord (s.reg rd) (s.reg rs) r h ov c ∧
      s.WritesFlags (exec (.cmpW rs rd) s) 2#16 s h r.msb (r == 0#16) ov c)

/-- `ADDX` and `SUBX`, both forms: the sum or difference with the old C, and a Z that is only ever cleared (R161, R162,
R166, R167). -/
def Obligations.AddSubExtended : Prop :=
  ∀ (s : State) (imm : Byte) (rs rd : Reg8),
    (encode (.addxImm imm rd) = [0x9#4 ++ rd.code, imm] ∧ ∃ r h ov c,
      AddsByte (s.regB rd) imm (CCR.c s.ccr) r h ov c ∧
      s.WritesByte (exec (.addxImm imm rd) s) 2#16 rd r h r.msb (CCR.z s.ccr && r == 0#8) ov c) ∧
    (encode (.addxReg rs rd) = [0x0E#8, rs.code ++ rd.code] ∧ ∃ r h ov c,
      AddsByte (s.regB rd) (s.regB rs) (CCR.c s.ccr) r h ov c ∧
      s.WritesByte (exec (.addxReg rs rd) s) 2#16 rd r h r.msb (CCR.z s.ccr && r == 0#8) ov c) ∧
    (encode (.subxImm imm rd) = [0xB#4 ++ rd.code, imm] ∧ ∃ r h ov c,
      SubtractsByte (s.regB rd) imm (CCR.c s.ccr) r h ov c ∧
      s.WritesByte (exec (.subxImm imm rd) s) 2#16 rd r h r.msb (CCR.z s.ccr && r == 0#8) ov c) ∧
    (encode (.subxReg rs rd) = [0x1E#8, rs.code ++ rd.code] ∧ ∃ r h ov c,
      SubtractsByte (s.regB rd) (s.regB rs) (CCR.c s.ccr) r h ov c ∧
      s.WritesByte (exec (.subxReg rs rd) s) 2#16 rd r h r.msb (CCR.z s.ccr && r == 0#8) ov c)

/-- `SUB.B`, `CMP.B` and `NEG`: the difference modulo 256 and its five flags; CMP writes no register (R162, R168, R174,
R180). -/
def Obligations.SubCmpNegByte : Prop :=
  ∀ (s : State) (imm : Byte) (rs rd : Reg8),
    (encode (.subB rs rd) = [0x18#8, rs.code ++ rd.code] ∧ ∃ r h ov c,
      SubtractsByte (s.regB rd) (s.regB rs) false r h ov c ∧
      s.WritesByte (exec (.subB rs rd) s) 2#16 rd r h r.msb (r == 0#8) ov c) ∧
    (encode (.cmpBImm imm rd) = [0xA#4 ++ rd.code, imm] ∧ ∃ r h ov c,
      SubtractsByte (s.regB rd) imm false r h ov c ∧
      s.WritesFlags (exec (.cmpBImm imm rd) s) 2#16 s h r.msb (r == 0#8) ov c) ∧
    (encode (.cmpBReg rs rd) = [0x1C#8, rs.code ++ rd.code] ∧ ∃ r h ov c,
      SubtractsByte (s.regB rd) (s.regB rs) false r h ov c ∧
      s.WritesFlags (exec (.cmpBReg rs rd) s) 2#16 s h r.msb (r == 0#8) ov c) ∧
    (encode (.neg rd) = [0x17#8, 0x8#4 ++ rd.code] ∧ ∃ r h ov c,
      SubtractsByte 0#8 (s.regB rd) false r h ov c ∧
      s.WritesByte (exec (.neg rd) s) 2#16 rd r h r.msb (r == 0#8) ov c)

/-- `INC` and `DEC`: N, Z and V written, H and C kept (R170, R171). -/
def Obligations.IncDec : Prop :=
  ∀ (s : State) (rd : Reg8),
    (encode (.inc rd) = [0x0A#8, 0x0#4 ++ rd.code] ∧ ∃ r : Byte, r.toNat = ((s.regB rd).toNat + 1) % 256 ∧
      s.WritesByte (exec (.inc rd) s) 2#16 rd r (CCR.h s.ccr) r.msb (r == 0#8) (s.regB rd == 0x7F#8) (CCR.c s.ccr)) ∧
    (encode (.dec rd) = [0x1A#8, 0x0#4 ++ rd.code] ∧ ∃ r : Byte, (r.toNat + 1) % 256 = (s.regB rd).toNat ∧
      s.WritesByte (exec (.dec rd) s) 2#16 rd r (CCR.h s.ccr) r.msb (r == 0#8) (s.regB rd == 0x80#8) (CCR.c s.ccr))

/-- `ADDS` and `SUBS` by 1 and 2: modulo 65536, no flag changes (R172, R173). -/
def Obligations.AddsSubs : Prop :=
  ∀ (s : State) (rd : Reg16),
    (encode (.adds1 rd) = [0x0B#8, 0x0#4 ++ nib0 rd.code] ∧ encode (.adds2 rd) = [0x0B#8, 0x8#4 ++ nib0 rd.code] ∧
      encode (.subs1 rd) = [0x1B#8, 0x0#4 ++ nib0 rd.code] ∧ encode (.subs2 rd) = [0x1B#8, 0x8#4 ++ nib0 rd.code]) ∧
    ∀ p ∈ [(Instr.adds1 rd, 1#16), (.adds2 rd, 2#16), (.subs1 rd, 0xFFFF#16), (.subs2 rd, 0xFFFE#16)],
      ∃ t, exec p.1 s = .next t ∧ t.reg rd = s.reg rd + p.2 ∧ t.pc = (s.pc + 2#16) &&& 0xFFFE#16 ∧ t.ccr = s.ccr ∧
        s.KeepsAllBut t rd.bytes [] s

/-- The rows of DAA's table (R176): C before, the range of the upper digit, H before, the range of the lower digit, the
adjustment, C after. -/
def Sys2Proof.Machine.daaRows : List (Bool × (Nat × Nat) × Bool × (Nat × Nat) × Byte × Bool) :=
  [(false, (0, 9), false, (0, 9), 0x00#8, false), (false, (0, 8), false, (10, 15), 0x06#8, false),
    (false, (0, 9), true, (0, 3), 0x06#8, false), (false, (10, 15), false, (0, 9), 0x60#8, true),
    (false, (9, 15), false, (10, 15), 0x66#8, true), (false, (10, 15), true, (0, 3), 0x66#8, true),
    (true, (0, 2), false, (0, 9), 0x60#8, true), (true, (0, 2), false, (10, 15), 0x66#8, true),
    (true, (0, 3), true, (0, 3), 0x66#8, true)]

/-- The rows of DAS's table (R177), in the same order of columns. -/
def Sys2Proof.Machine.dasRows : List (Bool × (Nat × Nat) × Bool × (Nat × Nat) × Byte × Bool) :=
  [(false, (0, 9), false, (0, 9), 0x00#8, false), (false, (0, 8), true, (6, 15), 0xFA#8, false),
    (true, (7, 15), false, (0, 9), 0xA0#8, true), (true, (6, 15), true, (6, 15), 0x9A#8, true)]

/-- C, H and the two digits of `b` are those of the row. -/
def Sys2Proof.Machine.RowMatches (ccr b : Byte) (row : Bool × (Nat × Nat) × Bool × (Nat × Nat) × Byte × Bool) : Prop :=
  CCR.c ccr = row.1 ∧ row.2.1.1 ≤ b.toNat / 16 ∧ b.toNat / 16 ≤ row.2.1.2 ∧ CCR.h ccr = row.2.2.1 ∧
    row.2.2.2.1.1 ≤ b.toNat % 16 ∧ b.toNat % 16 ≤ row.2.2.2.1.2

/-- A decimal adjustment leaves N and Z of its result, the carry `c`, and H and V with some value. -/
def Sys2Proof.Machine.State.Adjusts (s : State) (o : Host.Outcome State Fault Refusal) (rd : Reg8) (result : Byte → Prop)
    (carry : Bool → Prop) : Prop :=
  ∃ t h ov c, o = .next t ∧ result (t.regB rd) ∧ carry c ∧ t.pc = (s.pc + 2#16) &&& 0xFFFE#16 ∧
    CCR.Becomes s.ccr t.ccr h (t.regB rd).msb (t.regB rd == 0#8) ov c ∧ s.KeepsRegsBut t [rd] ∧ s.KeepsMemBut t [] ∧
    s.KeepsControl t ∧ t.deviceIn = s.deviceIn ∧ t.envLog = s.envLog

/-- `DAA` and `DAS` on a row of their table: the old value plus the adjustment, and C as the row says (R176, R177). -/
def Obligations.DecimalAdjustInTable : Prop :=
  ∀ (s : State) (rd : Reg8),
    (encode (.daa rd) = [0x0F#8, 0x0#4 ++ rd.code] ∧ ∀ row ∈ daaRows, RowMatches s.ccr (s.regB rd) row →
      s.Adjusts (exec (.daa rd) s) rd (fun r => r = s.regB rd + row.2.2.2.2.1) (fun c => c = row.2.2.2.2.2)) ∧
    (encode (.das rd) = [0x1F#8, 0x0#4 ++ rd.code] ∧ ∀ row ∈ dasRows, RowMatches s.ccr (s.regB rd) row →
      s.Adjusts (exec (.das rd) s) rd (fun r => r = s.regB rd + row.2.2.2.2.1) (fun c => c = row.2.2.2.2.2))

/-- `DAA` and `DAS` go on in every state, also off their tables: there the result, and for DAA the carry, are free
values; N and Z are the result's, and DAS keeps C (R176, R177; drawing is the spec's choice D19, log 21). -/
def Obligations.DecimalAdjustAlwaysGoesOn : Prop :=
  ∀ (s : State) (rd : Reg8),
    s.Adjusts (exec (.daa rd) s) rd (fun _ => True) (fun _ => True) ∧
      s.Adjusts (exec (.das rd) s) rd (fun _ => True) (fun c => c = CCR.c s.ccr)

/-- `ADDX` then `DAA` adds two packed BCD bytes with a carry in: the two digits of the sum, and C for a hundred
(R166, R176, R181). -/
def Obligations.BcdAdditionIsDecimal : Prop :=
  ∀ (s : State) (rs rd : Reg8),
    (s.regB rs).toNat / 16 ≤ 9 → (s.regB rs).toNat % 16 ≤ 9 → (s.regB rd).toNat / 16 ≤ 9 → (s.regB rd).toNat % 16 ≤ 9 →
    ∃ t u, exec (.addxReg rs rd) s = .next t ∧ exec (.daa rd) t = .next u ∧
      10 * ((u.regB rd).toNat / 16) + (u.regB rd).toNat % 16 + 100 * (CCR.c u.ccr).toNat =
        10 * ((s.regB rs).toNat / 16) + (s.regB rs).toNat % 16 +
          (10 * ((s.regB rd).toNat / 16) + (s.regB rd).toNat % 16) + (CCR.c s.ccr).toNat ∧
      (u.regB rd).toNat / 16 ≤ 9 ∧ (u.regB rd).toNat % 16 ≤ 9

/-- `MULXU`: the exact product of the lower byte of Rd and Rs fills Rd, no flag changes, also when Rs is half of Rd
(R178). -/
def Obligations.MulxuProduct : Prop :=
  ∀ (s : State) (rs : Reg8) (rd : Reg16),
    encode (.mulxu rs rd) = [0x50#8, rs.code ++ nib0 rd.code] ∧
      ∃ t, exec (.mulxu rs rd) s = .next t ∧ (t.reg rd).toNat = (s.regB (.lo rd)).toNat * (s.regB rs).toNat ∧
        t.pc = (s.pc + 2#16) &&& 0xFFFE#16 ∧ t.ccr = s.ccr ∧ s.KeepsAllBut t rd.bytes [] s

/-- `DIVXU` where the quotient fits: quotient in RdL, remainder in RdH, N and Z tell of the divisor (R179, R181). -/
def Obligations.DivxuQuotientAndRemainder : Prop :=
  ∀ (s : State) (rs : Reg8) (rd : Reg16), (s.regB rs).toNat ≠ 0 → (s.reg rd).toNat / (s.regB rs).toNat ≤ 255 →
    ∃ t, exec (.divxu rs rd) s = .next t ∧
      (s.reg rd).toNat = (t.regB (.lo rd)).toNat * (s.regB rs).toNat + (t.regB (.hi rd)).toNat ∧
      (t.regB (.hi rd)).toNat < (s.regB rs).toNat ∧ t.pc = (s.pc + 2#16) &&& 0xFFFE#16 ∧
      CCR.Becomes s.ccr t.ccr (CCR.h s.ccr) (s.regB rs).msb false (CCR.v s.ccr) (CCR.c s.ccr) ∧
      s.KeepsAllBut t rd.bytes [] s

/-- `DIVXU` goes on also for divisor 0 and for a quotient over 255: no trap, N and Z tell of the divisor, just Rd is a
free value (R179; the free value is D18, log 20). -/
def Obligations.DivxuAlwaysGoesOn : Prop :=
  ∀ (s : State) (rs : Reg8) (rd : Reg16),
    encode (.divxu rs rd) = [0x51#8, rs.code ++ nib0 rd.code] ∧
      ∃ t, exec (.divxu rs rd) s = .next t ∧ t.pc = (s.pc + 2#16) &&& 0xFFFE#16 ∧
        CCR.Becomes s.ccr t.ccr (CCR.h s.ccr) (s.regB rs).msb (s.regB rs == 0#8) (CCR.v s.ccr) (CCR.c s.ccr) ∧
        s.KeepsRegsBut t rd.bytes ∧ s.KeepsMemBut t [] ∧ s.KeepsControl t ∧ t.deviceIn = s.deviceIn ∧
        t.envLog = s.envLog

/-! ### Logic, shifts, bits -/

/-- The byte whose bit `k` is `f k`. -/
def Sys2Proof.Machine.IsByte (f : Nat → Bool) (r : Byte) : Prop := ∀ k, k < 8 → r.getLsbD k = f k

/-- A byte operation with result `r`, bit by bit `f`: N and Z from it, V cleared, H and C kept (R200). -/
def Sys2Proof.Machine.State.ComputesLogic (s : State) (i : Instr) (rd : Reg8) (f : Nat → Bool) : Prop :=
  ∃ r, IsByte f r ∧ s.WritesByte (exec i s) 2#16 rd r (CCR.h s.ccr) r.msb (r == 0#8) false (CCR.c s.ccr)

/-- `AND`, `OR`, `XOR` and `NOT`, every form (R200 to R204). -/
def Obligations.LogicOperations : Prop :=
  ∀ (s : State) (imm : Byte) (rs rd : Reg8),
    (encode (.andImm imm rd) = [0xE#4 ++ rd.code, imm] ∧ encode (.andReg rs rd) = [0x16#8, rs.code ++ rd.code] ∧
      s.ComputesLogic (.andImm imm rd) rd (fun k => (s.regB rd).getLsbD k && imm.getLsbD k) ∧
      s.ComputesLogic (.andReg rs rd) rd (fun k => (s.regB rd).getLsbD k && (s.regB rs).getLsbD k)) ∧
    (encode (.orImm imm rd) = [0xC#4 ++ rd.code, imm] ∧ encode (.orReg rs rd) = [0x14#8, rs.code ++ rd.code] ∧
      s.ComputesLogic (.orImm imm rd) rd (fun k => (s.regB rd).getLsbD k || imm.getLsbD k) ∧
      s.ComputesLogic (.orReg rs rd) rd (fun k => (s.regB rd).getLsbD k || (s.regB rs).getLsbD k)) ∧
    (encode (.xorImm imm rd) = [0xD#4 ++ rd.code, imm] ∧ encode (.xorReg rs rd) = [0x15#8, rs.code ++ rd.code] ∧
      s.ComputesLogic (.xorImm imm rd) rd (fun k => (s.regB rd).getLsbD k ^^ imm.getLsbD k) ∧
      s.ComputesLogic (.xorReg rs rd) rd (fun k => (s.regB rd).getLsbD k ^^ (s.regB rs).getLsbD k)) ∧
    (encode (.notB rd) = [0x17#8, 0x0#4 ++ rd.code] ∧
      s.ComputesLogic (.notB rd) rd (fun k => !(s.regB rd).getLsbD k))

/-- A shift to the left: bit 0 becomes `fill`, bit 7 goes to C. -/
def Sys2Proof.Machine.State.ShiftsLeft (s : State) (i : Instr) (rd : Reg8) (fill ov : Bool) : Prop :=
  ∃ r, IsByte (fun k => if k = 0 then fill else (s.regB rd).getLsbD (k - 1)) r ∧
    s.WritesByte (exec i s) 2#16 rd r (CCR.h s.ccr) r.msb (r == 0#8) ov ((s.regB rd).getLsbD 7)

/-- A shift to the right: bit 7 becomes `fill`, bit 0 goes to C, V is cleared. -/
def Sys2Proof.Machine.State.ShiftsRight (s : State) (i : Instr) (rd : Reg8) (fill : Bool) : Prop :=
  ∃ r, IsByte (fun k => if k = 7 then fill else (s.regB rd).getLsbD (k + 1)) r ∧
    s.WritesByte (exec i s) 2#16 rd r (CCR.h s.ccr) r.msb (r == 0#8) false ((s.regB rd).getLsbD 0)

/-- The eight shifts and rotates by one position (R210 to R218). -/
def Obligations.ShiftsAndRotates : Prop :=
  ∀ (s : State) (rd : Reg8),
    (encode (.shal rd) = [0x10#8, 0x8#4 ++ rd.code] ∧
      s.ShiftsLeft (.shal rd) rd false ((s.regB rd).getLsbD 7 ^^ (s.regB rd).getLsbD 6)) ∧
    (encode (.shar rd) = [0x11#8, 0x8#4 ++ rd.code] ∧ s.ShiftsRight (.shar rd) rd ((s.regB rd).getLsbD 7)) ∧
    (encode (.shll rd) = [0x10#8, 0x0#4 ++ rd.code] ∧ s.ShiftsLeft (.shll rd) rd false false) ∧
    (encode (.shlr rd) = [0x11#8, 0x0#4 ++ rd.code] ∧ s.ShiftsRight (.shlr rd) rd false) ∧
    (encode (.rotl rd) = [0x12#8, 0x8#4 ++ rd.code] ∧ s.ShiftsLeft (.rotl rd) rd ((s.regB rd).getLsbD 7) false) ∧
    (encode (.rotr rd) = [0x13#8, 0x8#4 ++ rd.code] ∧ s.ShiftsRight (.rotr rd) rd ((s.regB rd).getLsbD 0)) ∧
    (encode (.rotxl rd) = [0x12#8, 0x0#4 ++ rd.code] ∧ s.ShiftsLeft (.rotxl rd) rd (CCR.c s.ccr) false) ∧
    (encode (.rotxr rd) = [0x13#8, 0x0#4 ++ rd.code] ∧ s.ShiftsRight (.rotxr rd) rd (CCR.c s.ccr))

/-- `BSET`, `BCLR`, `BNOT`, `BST` and `BIST` on a register: one bit of it changes and no flag; a bit number in a
register is its low three bits, read before the write (R231 to R236, R246, R247). -/
def Obligations.BitWritesInRegister : Prop :=
  ∀ (s : State) (k : BitVec 3) (rn rd : Reg8),
    (encode (.bsetImmReg k rd) = [0x70#8, nib0 k ++ rd.code] ∧ encode (.bsetRegReg rn rd) = [0x60#8, rn.code ++ rd.code] ∧
      s.ChangesRegBit (exec (.bsetImmReg k rd) s) rd k.toNat (fun _ => true) ∧
      s.ChangesRegBit (exec (.bsetRegReg rn rd) s) rd ((s.regB rn).toNat % 8) (fun _ => true)) ∧
    (encode (.bclrImmReg k rd) = [0x72#8, nib0 k ++ rd.code] ∧ encode (.bclrRegReg rn rd) = [0x62#8, rn.code ++ rd.code] ∧
      s.ChangesRegBit (exec (.bclrImmReg k rd) s) rd k.toNat (fun _ => false) ∧
      s.ChangesRegBit (exec (.bclrRegReg rn rd) s) rd ((s.regB rn).toNat % 8) (fun _ => false)) ∧
    (encode (.bnotImmReg k rd) = [0x71#8, nib0 k ++ rd.code] ∧ encode (.bnotRegReg rn rd) = [0x61#8, rn.code ++ rd.code] ∧
      s.ChangesRegBit (exec (.bnotImmReg k rd) s) rd k.toNat (fun b => !b) ∧
      s.ChangesRegBit (exec (.bnotRegReg rn rd) s) rd ((s.regB rn).toNat % 8) (fun b => !b)) ∧
    (encode (.bstReg k rd) = [0x67#8, nib0 k ++ rd.code] ∧ encode (.bistReg k rd) = [0x67#8, nib1 k ++ rd.code] ∧
      s.ChangesRegBit (exec (.bstReg k rd) s) rd k.toNat (fun _ => CCR.c s.ccr) ∧
      s.ChangesRegBit (exec (.bistReg k rd) s) rd k.toNat (fun _ => !CCR.c s.ccr))

/-- `BSET`, `BCLR`, `BNOT`, `BST` and `BIST` on memory: one byte read, one byte written to the same address with one bit
changed, always (R65, R230 to R236, R246, R247). -/
def Obligations.BitWritesInMemory : Prop :=
  ∀ (s : State) (k : BitVec 3) (rn : Reg8) (rm : Reg16) (a8 : Byte),
    (s.ChangesMemBit (exec (.bsetImmInd k rm) s) (s.reg rm) k.toNat (fun _ => true) ∧
      s.ChangesMemBit (exec (.bsetImmAbs k a8) s) (0xFF00#16 ||| a8.setWidth 16) k.toNat (fun _ => true) ∧
      s.ChangesMemBit (exec (.bsetRegInd rn rm) s) (s.reg rm) ((s.regB rn).toNat % 8) (fun _ => true) ∧
      s.ChangesMemBit (exec (.bsetRegAbs rn a8) s) (0xFF00#16 ||| a8.setWidth 16) ((s.regB rn).toNat % 8)
        (fun _ => true)) ∧
    (s.ChangesMemBit (exec (.bclrImmInd k rm) s) (s.reg rm) k.toNat (fun _ => false) ∧
      s.ChangesMemBit (exec (.bclrImmAbs k a8) s) (0xFF00#16 ||| a8.setWidth 16) k.toNat (fun _ => false) ∧
      s.ChangesMemBit (exec (.bclrRegInd rn rm) s) (s.reg rm) ((s.regB rn).toNat % 8) (fun _ => false) ∧
      s.ChangesMemBit (exec (.bclrRegAbs rn a8) s) (0xFF00#16 ||| a8.setWidth 16) ((s.regB rn).toNat % 8)
        (fun _ => false)) ∧
    (s.ChangesMemBit (exec (.bnotImmInd k rm) s) (s.reg rm) k.toNat (fun b => !b) ∧
      s.ChangesMemBit (exec (.bnotImmAbs k a8) s) (0xFF00#16 ||| a8.setWidth 16) k.toNat (fun b => !b) ∧
      s.ChangesMemBit (exec (.bnotRegInd rn rm) s) (s.reg rm) ((s.regB rn).toNat % 8) (fun b => !b) ∧
      s.ChangesMemBit (exec (.bnotRegAbs rn a8) s) (0xFF00#16 ||| a8.setWidth 16) ((s.regB rn).toNat % 8)
        (fun b => !b)) ∧
    (s.ChangesMemBit (exec (.bstInd k rm) s) (s.reg rm) k.toNat (fun _ => CCR.c s.ccr) ∧
      s.ChangesMemBit (exec (.bstAbs k a8) s) (0xFF00#16 ||| a8.setWidth 16) k.toNat (fun _ => CCR.c s.ccr)) ∧
    (s.ChangesMemBit (exec (.bistInd k rm) s) (s.reg rm) k.toNat (fun _ => !CCR.c s.ccr) ∧
      s.ChangesMemBit (exec (.bistAbs k a8) s) (0xFF00#16 ||| a8.setWidth 16) k.toNat (fun _ => !CCR.c s.ccr))

/-- `BTST`, six forms: Z is the inverse of the bit, nothing is written (R65, R231, R232, R237). -/
def Obligations.BitTests : Prop :=
  ∀ (s : State) (k : BitVec 3) (rn rd : Reg8) (rm : Reg16) (a8 : Byte),
    (encode (.btstImmReg k rd) = [0x73#8, nib0 k ++ rd.code] ∧
      s.TestsBit (exec (.btstImmReg k rd) s) 2#16 (s.regB rd, s) k.toNat) ∧
    (encode (.btstImmInd k rm) = [0x7C#8, nib0 rm.code ++ 0x0#4, 0x73#8, nib0 k ++ 0x0#4] ∧
      s.TestsBit (exec (.btstImmInd k rm) s) 4#16 (s.loadByte (s.reg rm)) k.toNat) ∧
    (encode (.btstImmAbs k a8) = [0x7E#8, a8, 0x73#8, nib0 k ++ 0x0#4] ∧
      s.TestsBit (exec (.btstImmAbs k a8) s) 4#16 (s.loadByte (0xFF00#16 ||| a8.setWidth 16)) k.toNat) ∧
    (encode (.btstRegReg rn rd) = [0x63#8, rn.code ++ rd.code] ∧
      s.TestsBit (exec (.btstRegReg rn rd) s) 2#16 (s.regB rd, s) ((s.regB rn).toNat % 8)) ∧
    (encode (.btstRegInd rn rm) = [0x7C#8, nib0 rm.code ++ 0x0#4, 0x63#8, rn.code ++ 0x0#4] ∧
      s.TestsBit (exec (.btstRegInd rn rm) s) 4#16 (s.loadByte (s.reg rm)) ((s.regB rn).toNat % 8)) ∧
    (encode (.btstRegAbs rn a8) = [0x7E#8, a8, 0x63#8, rn.code ++ 0x0#4] ∧
      s.TestsBit (exec (.btstRegAbs rn a8) s) 4#16 (s.loadByte (0xFF00#16 ||| a8.setWidth 16)) ((s.regB rn).toNat % 8))

/-- The three forms of an instruction that combines C with a bit: `first` is the byte that holds the operation and `num`
the nibble that holds the bit number, in the encodings of all three. -/
def Sys2Proof.Machine.State.CombinesCarryAll (s : State) (k : BitVec 3) (rd : Reg8) (rm : Reg16) (a8 first : Byte)
    (num : BitVec 4) (onReg onInd onAbs : Instr) (g : Bool → Bool → Bool) : Prop :=
  (encode onReg = [first, num ++ rd.code] ∧ s.CombinesCarry (exec onReg s) 2#16 (s.regB rd, s) k.toNat g) ∧
    (encode onInd = [0x7C#8, nib0 rm.code ++ 0x0#4, first, num ++ 0x0#4] ∧
      s.CombinesCarry (exec onInd s) 4#16 (s.loadByte (s.reg rm)) k.toNat g) ∧
    (encode onAbs = [0x7E#8, a8, first, num ++ 0x0#4] ∧
      s.CombinesCarry (exec onAbs s) 4#16 (s.loadByte (0xFF00#16 ||| a8.setWidth 16)) k.toNat g)

/-- `BAND`, `BIAND`, `BOR`, `BIOR`, `BXOR`, `BIXOR`, `BLD` and `BILD`, three forms each: only C changes (R232, R238 to
R245). -/
def Obligations.CarryBitOperations : Prop :=
  ∀ (s : State) (k : BitVec 3) (rd : Reg8) (rm : Reg16) (a8 : Byte),
    s.CombinesCarryAll k rd rm a8 0x76#8 (nib0 k) (.bandReg k rd) (.bandInd k rm) (.bandAbs k a8) (fun c b => c && b) ∧
      s.CombinesCarryAll k rd rm a8 0x76#8 (nib1 k) (.biandReg k rd) (.biandInd k rm) (.biandAbs k a8)
        (fun c b => c && !b) ∧
      s.CombinesCarryAll k rd rm a8 0x74#8 (nib0 k) (.borReg k rd) (.borInd k rm) (.borAbs k a8) (fun c b => c || b) ∧
      s.CombinesCarryAll k rd rm a8 0x74#8 (nib1 k) (.biorReg k rd) (.biorInd k rm) (.biorAbs k a8)
        (fun c b => c || !b) ∧
      s.CombinesCarryAll k rd rm a8 0x75#8 (nib0 k) (.bxorReg k rd) (.bxorInd k rm) (.bxorAbs k a8)
        (fun c b => c != b) ∧
      s.CombinesCarryAll k rd rm a8 0x75#8 (nib1 k) (.bixorReg k rd) (.bixorInd k rm) (.bixorAbs k a8)
        (fun c b => c == b) ∧
      s.CombinesCarryAll k rd rm a8 0x77#8 (nib0 k) (.bldReg k rd) (.bldInd k rm) (.bldAbs k a8) (fun _ b => b) ∧
      s.CombinesCarryAll k rd rm a8 0x77#8 (nib1 k) (.bildReg k rd) (.bildInd k rm) (.bildAbs k a8) (fun _ b => !b)

/-! ### Control flow -/

/-- The sixteen conditional branches, each with its condition on N, Z, V and C (R270, R271). -/
def Obligations.ConditionalBranches : Prop :=
  ∀ (s : State) (d : Byte) (n z v c : Bool), n = CCR.n s.ccr → z = CCR.z s.ccr → v = CCR.v s.ccr → c = CCR.c s.ccr →
    ([Instr.bra d, .brn d, .bhi d, .bls d, .bcc d, .bcs d, .bne d, .beq d, .bvc d, .bvs d, .bpl d, .bmi d, .bge d,
        .blt d, .bgt d, .ble d].map encode =
      [[0x40#8, d], [0x41#8, d], [0x42#8, d], [0x43#8, d], [0x44#8, d], [0x45#8, d], [0x46#8, d], [0x47#8, d],
        [0x48#8, d], [0x49#8, d], [0x4A#8, d], [0x4B#8, d], [0x4C#8, d], [0x4D#8, d], [0x4E#8, d], [0x4F#8, d]]) ∧
      s.Branches (exec (.bra d) s) d True ∧ s.Branches (exec (.brn d) s) d False ∧
      s.Branches (exec (.bhi d) s) d (c = false ∧ z = false) ∧ s.Branches (exec (.bls d) s) d (c = true ∨ z = true) ∧
      s.Branches (exec (.bcc d) s) d (c = false) ∧ s.Branches (exec (.bcs d) s) d (c = true) ∧
      s.Branches (exec (.bne d) s) d (z = false) ∧ s.Branches (exec (.beq d) s) d (z = true) ∧
      s.Branches (exec (.bvc d) s) d (v = false) ∧ s.Branches (exec (.bvs d) s) d (v = true) ∧
      s.Branches (exec (.bpl d) s) d (n = false) ∧ s.Branches (exec (.bmi d) s) d (n = true) ∧
      s.Branches (exec (.bge d) s) d (n = v) ∧ s.Branches (exec (.blt d) s) d (n ≠ v) ∧
      s.Branches (exec (.bgt d) s) d (z = false ∧ n = v) ∧ s.Branches (exec (.ble d) s) d (z = true ∨ n ≠ v)

/-- After `CMP.B` or `CMP.W` the unsigned conditions order the operands as unsigned numbers and the signed ones as two's
complement numbers (R273, R274, R276). -/
def Obligations.CompareThenBranchOrders : Prop :=
  ∀ (s : State) (bs bd : Reg8) (ws wd : Reg16) (d : Byte),
    (∃ t, exec (.cmpBReg bs bd) s = .next t ∧
      t.Branches (exec (.bhi d) t) d ((s.regB bs).toNat < (s.regB bd).toNat) ∧
      t.Branches (exec (.bls d) t) d ((s.regB bd).toNat ≤ (s.regB bs).toNat) ∧
      t.Branches (exec (.bcs d) t) d ((s.regB bd).toNat < (s.regB bs).toNat) ∧
      t.Branches (exec (.beq d) t) d (s.regB bd = s.regB bs) ∧
      t.Branches (exec (.bge d) t) d ((s.regB bs).toInt ≤ (s.regB bd).toInt) ∧
      t.Branches (exec (.blt d) t) d ((s.regB bd).toInt < (s.regB bs).toInt) ∧
      t.Branches (exec (.bgt d) t) d ((s.regB bs).toInt < (s.regB bd).toInt) ∧
      t.Branches (exec (.ble d) t) d ((s.regB bd).toInt ≤ (s.regB bs).toInt)) ∧
    (∃ t, exec (.cmpW ws wd) s = .next t ∧
      t.Branches (exec (.bhi d) t) d ((s.reg ws).toNat < (s.reg wd).toNat) ∧
      t.Branches (exec (.bls d) t) d ((s.reg wd).toNat ≤ (s.reg ws).toNat) ∧
      t.Branches (exec (.bcs d) t) d ((s.reg wd).toNat < (s.reg ws).toNat) ∧
      t.Branches (exec (.beq d) t) d (s.reg wd = s.reg ws) ∧
      t.Branches (exec (.bge d) t) d ((s.reg ws).toInt ≤ (s.reg wd).toInt) ∧
      t.Branches (exec (.blt d) t) d ((s.reg wd).toInt < (s.reg ws).toInt) ∧
      t.Branches (exec (.bgt d) t) d ((s.reg ws).toInt < (s.reg wd).toInt) ∧
      t.Branches (exec (.ble d) t) d ((s.reg wd).toInt ≤ (s.reg ws).toInt))

/-- `JMP`, three forms: PC at the register, the absolute address, or the word in H'0000 to H'00FF that the operand
points to (R270, R277 to R279). That the pointer form goes on only outside byte-only regions is the choice D23 (log 12);
the order of its pointer's two byte reads toward a device is D8 (log 11). -/
def Obligations.Jumps : Prop :=
  ∀ (s : State) (rm : Reg16) (aa : Word) (a8 : Byte),
    (encode (.jmpInd rm) = [0x59#8, nib0 rm.code ++ 0x0#4] ∧ s.GoesTo (exec (.jmpInd rm) s) (s.reg rm) s) ∧
      (encode (.jmpAbs aa) = [0x5A#8, 0x00#8, aa.extractLsb' 8 8, aa.extractLsb' 0 8] ∧
        s.GoesTo (exec (.jmpAbs aa) s) aa s) ∧
      (encode (.jmpMemInd a8) = [0x5B#8, a8] ∧ (s.chip.wordOk (a8.setWidth 16) = true →
        s.GoesTo (exec (.jmpMemInd a8) s) (s.twoBytes (a8.setWidth 16)).1 (s.twoBytes (a8.setWidth 16)).2))

/-- `BSR` and `JSR`: the address of the next instruction is pushed and PC is at the target, which is read before the
push (R280, R281). -/
def Obligations.Calls : Prop :=
  ∀ (s : State) (d : Byte) (rm : Reg16) (aa : Word) (a8 : Byte),
    (encode (.bsr d) = [0x55#8, d] ∧
      (s.CanPush 2#16 → s.CallsTo (exec (.bsr d) s) 2#16 (s.pc + 2#16 + d.signExtend 16) s)) ∧
    (encode (.jsrInd rm) = [0x5D#8, nib0 rm.code ++ 0x0#4] ∧
      (s.CanPush 2#16 → s.CallsTo (exec (.jsrInd rm) s) 2#16 (s.reg rm) s)) ∧
    (encode (.jsrAbs aa) = [0x5E#8, 0x00#8, aa.extractLsb' 8 8, aa.extractLsb' 0 8] ∧
      (s.CanPush 4#16 → s.CallsTo (exec (.jsrAbs aa) s) 4#16 aa s)) ∧
    (encode (.jsrMemInd a8) = [0x5F#8, a8] ∧ (s.chip.wordOk (a8.setWidth 16) = true → s.CanPush 2#16 →
      s.CallsTo (exec (.jsrMemInd a8) s) 2#16 (s.twoBytes (a8.setWidth 16)).1 (s.twoBytes (a8.setWidth 16)).2))

/-- `RTS`: PC is the word on top of the stack, SP goes up by 2, CCR stays (R282). -/
def Obligations.ReturnFromSubroutine : Prop :=
  ∀ s : State, encode .rts = [0x54#8, 0x70#8] ∧ (s.chip.wordOk (s.reg .r7) = true →
    ∃ t, exec .rts s = .next t ∧ t.pc = (s.twoBytes (s.reg .r7)).1 &&& 0xFFFE#16 ∧
      t.reg .r7 = s.reg .r7 + 2#16 ∧ t.ccr = s.ccr ∧
      s.KeepsAllBut t Reg16.r7.bytes [] (s.twoBytes (s.reg .r7)).2)

/-! ### System control and block transfer -/

/-- `RTE`: all of CCR from the upper byte of the word on top of the stack, PC from the word above it, SP up by 4 (R300,
R342). -/
def Obligations.ReturnFromException : Prop :=
  ∀ s : State, encode .rte = [0x56#8, 0x70#8] ∧
    (s.chip.wordOk (s.reg .r7) = true → s.chip.wordOk (s.reg .r7 + 2#16) = true →
    ∃ t, exec .rte s = .next t ∧ t.ccr = (s.loadByte (s.reg .r7 &&& 0xFFFE#16)).1 ∧
      t.pc = ((s.twoBytes (s.reg .r7)).2.twoBytes (s.reg .r7 + 2#16)).1 &&& 0xFFFE#16 ∧
      t.reg .r7 = s.reg .r7 + 4#16 ∧
      s.KeepsAllBut t Reg16.r7.bytes [] ((s.twoBytes (s.reg .r7)).2.twoBytes (s.reg .r7 + 2#16)).2)

/-- `SLEEP`: PC at the next instruction and the power-down state; nothing else changes (R301). -/
def Obligations.SleepPowersDown : Prop :=
  ∀ s : State, encode .sleep = [0x01#8, 0x80#8] ∧
    ∃ t, exec .sleep s = .next t ∧ t.mode = .powerDown ∧ t.pc = (s.pc + 2#16) &&& 0xFFFE#16 ∧ t.ccr = s.ccr ∧
      s.KeepsRegsBut t [] ∧ s.KeepsMemBut t [] ∧ s.KeepsEnv t ∧ t.holdOff = s.holdOff ∧ t.chip = s.chip ∧
      t.inputs = s.inputs

/-- The instruction makes CCR `c` and does nothing else but move PC. -/
def Sys2Proof.Machine.State.LoadsCcr (s : State) (o : Host.Outcome State Fault Refusal) (c : Byte) : Prop :=
  ∃ t, o = .next t ∧ t.ccr = c ∧ t.pc = (s.pc + 2#16) &&& 0xFFFE#16 ∧ s.KeepsAllBut t [] [] s

/-- `LDC` writes all eight bits of CCR; `STC` copies them to a register and changes none (R302 to R304). -/
def Obligations.LoadAndStoreCcr : Prop :=
  ∀ (s : State) (imm : Byte) (r : Reg8),
    (encode (.ldcImm imm) = [0x07#8, imm] ∧ s.LoadsCcr (exec (.ldcImm imm) s) imm) ∧
      (encode (.ldcReg r) = [0x03#8, 0x0#4 ++ r.code] ∧ s.LoadsCcr (exec (.ldcReg r) s) (s.regB r)) ∧
      (encode (.stc r) = [0x02#8, 0x0#4 ++ r.code] ∧
        ∃ t, exec (.stc r) s = .next t ∧ t.regB r = s.ccr ∧ t.ccr = s.ccr ∧ t.pc = (s.pc + 2#16) &&& 0xFFFE#16 ∧
          s.KeepsAllBut t [r] [] s)

/-- `ANDC`, `ORC` and `XORC` combine CCR with immediate data, all eight bits; `NOP` only moves PC (R305 to R308). -/
def Obligations.LogicOnCcrAndNop : Prop :=
  ∀ (s : State) (imm : Byte),
    (encode (.andc imm) = [0x06#8, imm] ∧ encode (.orc imm) = [0x04#8, imm] ∧ encode (.xorc imm) = [0x05#8, imm] ∧
      encode .nop = [0x00#8, 0x00#8]) ∧
    (∃ c, IsByte (fun k => s.ccr.getLsbD k && imm.getLsbD k) c ∧ s.LoadsCcr (exec (.andc imm) s) c) ∧
    (∃ c, IsByte (fun k => s.ccr.getLsbD k || imm.getLsbD k) c ∧ s.LoadsCcr (exec (.orc imm) s) c) ∧
    (∃ c, IsByte (fun k => s.ccr.getLsbD k ^^ imm.getLsbD k) c ∧ s.LoadsCcr (exec (.xorc imm) s) c) ∧
    s.LoadsCcr (exec .nop s) s.ccr

/-- One turn of EEPMOV's loop, written out from R320: a byte read at R5, written at R6, both up by 1, R4L down by 1. -/
def Sys2Proof.Machine.State.turn (s : State) : State :=
  let read := s.loadByte (s.reg .r5)
  let stored := read.2.putByte (s.reg .r6) read.1
  ((stored.setReg .r5 (s.reg .r5 + 1#16)).setReg .r6 (s.reg .r6 + 1#16)).setRegB (.lo .r4) (s.regB (.lo .r4) - 1#8)

/-- `EEPMOV` is its loop: nothing when R4L is 0; else one turn and then the rest, and a turn that would store into the
next instruction is refused (R320; the refusal is D9, log 13). -/
def Obligations.EepmovIsItsLoop : Prop :=
  ∀ s : State, encode .eepmov = [0x7B#8, 0x5C#8, 0x59#8, 0x8F#8] ∧
    (s.regB (.lo .r4) = 0#8 → s.GoesTo (exec .eepmov s) (s.pc + 4#16) s) ∧
    (s.regB (.lo .r4) ≠ 0#8 → s.ClearOfPrefetch 4#16 (s.reg .r6) → exec .eepmov s = exec .eepmov s.turn) ∧
    (s.regB (.lo .r4) ≠ 0#8 → ¬s.ClearOfPrefetch 4#16 (s.reg .r6) →
      exec .eepmov s = .refused .storeIntoPrefetched)

/-- `EEPMOV` copies a block of R4L bytes: it goes on whenever no byte of the destination is in the next instruction,
R5 and R6 go up by R4L, R4L becomes 0, no other register, no flag and no byte outside the destination changes; and
where the source is memory, the destination RAM, and no source byte is one that has been written before, the
destination holds the source (R320). -/
def Obligations.EepmovCopiesBlock : Prop :=
  ∀ (s : State) (n : Nat), n = (s.regB (.lo .r4)).toNat →
    (∀ k, k < n → s.ClearOfPrefetch 4#16 (s.reg .r6 + BitVec.ofNat 16 k)) →
    ∃ t, exec .eepmov s = .next t ∧ t.reg .r5 = s.reg .r5 + BitVec.ofNat 16 n ∧
      t.reg .r6 = s.reg .r6 + BitVec.ofNat 16 n ∧ t.regB (.lo .r4) = 0#8 ∧
      s.KeepsRegsBut t (.lo .r4 :: Reg16.r5.bytes ++ Reg16.r6.bytes) ∧ t.ccr = s.ccr ∧
      t.pc = (s.pc + 4#16) &&& 0xFFFE#16 ∧ s.KeepsControl t ∧
      (∀ a, (∀ k, k < n → a ≠ s.reg .r6 + BitVec.ofNat 16 k) → t.peek a = s.peek a) ∧
      ((∀ k, k < n → s.Storage (s.reg .r5 + BitVec.ofNat 16 k) ∧
          s.chip.kindAt (s.reg .r6 + BitVec.ofNat 16 k) = .ram) →
        (∀ j k, j < k → k < n → s.reg .r6 + BitVec.ofNat 16 j ≠ s.reg .r5 + BitVec.ofNat 16 k) →
        s.KeepsEnv t ∧
          ∀ k, k < n → t.peek (s.reg .r6 + BitVec.ofNat 16 k) = s.peek (s.reg .r5 + BitVec.ofNat 16 k))

/-! ### Exceptions -/

/-- A running CPU at an acceptance point, asked for an interrupt that is not masked, with the environment choosing
acceptance, enters the highest one: PC, then CCR in the upper byte of a word, are pushed, I is set, PC comes from the
vector, the source is told; a nonmaskable source needs no I = 0 (R336 to R338). Stack in RAM, vector in memory. -/
def Obligations.InterruptEntry : Prop :=
  ∀ (s : State) (b : Boundary) (later : List Boundary) (src : IntSource), s.mode = .programExecution →
    s.holdOff = false → s.inputs = b :: later → b.reset = .inactive → b.accept = true →
    s.HighestRequest b (fun _ => True) src → s.CanEnter src → s.EntersInterrupt (step s) src

/-- Requests that are not accepted change nothing at a boundary: masked ones (I = 1 and no nonmaskable source among
them); any at the boundary right after the reset entry; any where the environment takes the other successor of R337
(the last two: R337, D11, log 22, 26). -/
def Obligations.RequestsThatWait : Prop :=
  ∀ (s : State) (b : Boundary) (later : List Boundary), s.inputs = b :: later → b.reset = .inactive →
    (CCR.i s.ccr = true → (∀ src ∈ s.chip.sources, src.id ∈ b.requests → src.nonmaskable = false) →
      step s = step { s with inputs := Boundary.quiet :: later }) ∧
    (s.mode = .programExecution → s.holdOff = true → step s = step { s with inputs := Boundary.quiet :: later }) ∧
    (s.mode = .programExecution → b.accept = false → step s = step { s with inputs := Boundary.quiet :: later })

/-- In the power-down state the CPU does nothing until a request that is not masked and in WakeSet arrives; then the
highest such interrupt is entered, with PC the address after SLEEP (R301, R337, R376). When the environment's list has
ended its boundary is the quiet one (the model's choice, log 23), and the CPU stays. WakeSet as a mark on each source is
the model's form of the parameter (D16, log 31). -/
def Obligations.PowerDownStaysOrWakes : Prop :=
  ∀ s : State, s.mode = .powerDown → s.boundary.reset = .inactive →
    ((∀ src ∈ s.chip.sources, src.wakes = true → src.id ∈ s.boundary.requests →
        src.nonmaskable = false ∧ CCR.i s.ccr = true) →
      step s = .next { s with inputs := s.inputs.tail }) ∧
    (s.inputs = [] → step s = .next s) ∧
    (∀ src, s.holdOff = false → s.HighestRequest s.boundary (fun x => x.wakes = true) src → s.CanEnter src →
      s.EntersInterrupt (step s) src)

/-- A reset is taken whatever the operation state and the I bit, when it is requested at the boundary or the reset state
is released: PC from the reset vector, I set, nothing written to memory (R332, R334, R376). While the input is held the
CPU is in its reset state and changes nothing else. -/
def Obligations.ResetEntry : Prop :=
  ∀ s : State,
    (s.boundary.reset = .request ∨ s.boundary.reset = .inactive ∧ s.mode = .resetState →
      s.WordStorage s.chip.resetVector →
      ∃ t, step s = .next t ∧ t.pc = s.peekWord s.chip.resetVector &&& 0xFFFE#16 ∧ CCR.i t.ccr = true ∧
        t.mode = .programExecution ∧ t.holdOff = true ∧ s.KeepsMemBut t [] ∧ t.chip = s.chip ∧
        t.inputs = s.inputs.tail ∧ t.deviceIn = s.deviceIn ∧ t.envLog = s.envLog) ∧
    (s.boundary.reset = .hold →
      step s = .next { s with inputs := s.inputs.tail, mode := .resetState, holdOff := false })

/-- The machine right after reset. The spec gives it I = 1 and program execution (R38, R334, R370), and that its boundary
accepts no interrupt (R337; the bit that marks it is log 26). The two clauses after these are the model's choice: the
environment's list is empty, hence quiet (log 23; the spec says only that no request is pending inside the CPU, D14), and
no byte of memory is listed (log 5, 7; the spec says only that reset leaves memory as it was, D14). -/
def Obligations.StateAfterReset : Prop :=
  CCR.i State.reset.ccr = true ∧ State.reset.mode = .programExecution ∧ State.reset.holdOff = true ∧
    State.reset.inputs = [] ∧ State.reset.mem = []

/-- An interrupt is transparent: entering it and executing RTE at once gives back PC, every CCR bit and every register,
SP included (R338, R342). -/
def Obligations.InterruptThenRteRestores : Prop :=
  ∀ (s : State) (b : Boundary) (later : List Boundary) (src : IntSource), s.pc.getLsbD 0 = false →
    s.mode = .programExecution → s.holdOff = false → s.inputs = b :: later → b.reset = .inactive → b.accept = true →
    s.HighestRequest b (fun _ => True) src → s.CanEnter src →
    ∃ t u, step s = .next t ∧ exec .rte t = .next u ∧ u.pc = s.pc ∧ u.ccr = s.ccr ∧ u.regs = s.regs ∧
      u.mode = .programExecution ∧ u.mem = t.mem ∧ u.chip = s.chip ∧ u.inputs = later

/-! ### The whole machine -/

/-- Every step keeps the invariant, from any state that has it: memory in canonical form, bit 0 of PC 0, the hold-off
only while running, the chip as the spec allows (R28, R50, R334, R336). -/
def Obligations.InvariantKeptByStep : Prop :=
  ∀ s t : State, s.Inv → step s = .next t → t.Inv

/-- The machine right after reset has the invariant. -/
def Obligations.InvariantAtReset : Prop := State.reset.Inv

/-- What no instruction does: none changes the chip, the coming boundaries or the contents of CCR's I and user bits, but
LDC, ANDC, ORC, XORC and RTE for the latter; none but SLEEP leaves the operation state; each leaves bit 0 of PC at 0
(R28, R32, R35, R330). -/
def Obligations.WhatInstructionsKeep : Prop :=
  ∀ (i : Instr) (s t : State), exec i s = .next t →
    t.chip = s.chip ∧ t.inputs = s.inputs ∧ t.holdOff = s.holdOff ∧ t.pc.getLsbD 0 = false ∧
      (i ≠ .sleep → t.mode = s.mode) ∧
      ((∀ r, i ≠ .ldcReg r) →
        (∀ imm, i ≠ .ldcImm imm ∧ i ≠ .andc imm ∧ i ≠ .orc imm ∧ i ≠ .xorc imm) → i ≠ .rte →
        CCR.i t.ccr = CCR.i s.ccr ∧ CCR.u6 t.ccr = CCR.u6 s.ccr ∧ CCR.u4 t.ccr = CCR.u4 s.ccr)
end

