-- ==== Sys2Proof/Laws/State.lean ====
section
/-! SUPPORT. For each update of `State`, what each field holds after it; and for each read that looks at one field,
that the other updates do not change it. -/

namespace Sys2Proof.Machine

/-! ### Fields after an update -/

@[simp] theorem setReg_regs (s : State) (n : Reg16) (v : Word) : (s.setReg n v).regs = s.regs.set n v := rfl
@[simp] theorem setReg_pc (s : State) (n : Reg16) (v : Word) : (s.setReg n v).pc = s.pc := rfl
@[simp] theorem setReg_ccr (s : State) (n : Reg16) (v : Word) : (s.setReg n v).ccr = s.ccr := rfl
@[simp] theorem setReg_mode (s : State) (n : Reg16) (v : Word) : (s.setReg n v).mode = s.mode := rfl
@[simp] theorem setReg_holdOff (s : State) (n : Reg16) (v : Word) : (s.setReg n v).holdOff = s.holdOff := rfl
@[simp] theorem setReg_mem (s : State) (n : Reg16) (v : Word) : (s.setReg n v).mem = s.mem := rfl
@[simp] theorem setReg_chip (s : State) (n : Reg16) (v : Word) : (s.setReg n v).chip = s.chip := rfl
@[simp] theorem setReg_inputs (s : State) (n : Reg16) (v : Word) : (s.setReg n v).inputs = s.inputs := rfl
@[simp] theorem setReg_deviceIn (s : State) (n : Reg16) (v : Word) : (s.setReg n v).deviceIn = s.deviceIn := rfl
@[simp] theorem setReg_envLog (s : State) (n : Reg16) (v : Word) : (s.setReg n v).envLog = s.envLog := rfl
@[simp] theorem setReg_draws (s : State) (n : Reg16) (v : Word) : (s.setReg n v).draws = s.draws := rfl

@[simp] theorem setPc_regs (s : State) (t : Word) : (s.setPc t).regs = s.regs := rfl
@[simp] theorem setPc_pc (s : State) (t : Word) : (s.setPc t).pc = t &&& 0xFFFE#16 := rfl
@[simp] theorem setPc_ccr (s : State) (t : Word) : (s.setPc t).ccr = s.ccr := rfl
@[simp] theorem setPc_mode (s : State) (t : Word) : (s.setPc t).mode = s.mode := rfl
@[simp] theorem setPc_holdOff (s : State) (t : Word) : (s.setPc t).holdOff = s.holdOff := rfl
@[simp] theorem setPc_mem (s : State) (t : Word) : (s.setPc t).mem = s.mem := rfl
@[simp] theorem setPc_chip (s : State) (t : Word) : (s.setPc t).chip = s.chip := rfl
@[simp] theorem setPc_inputs (s : State) (t : Word) : (s.setPc t).inputs = s.inputs := rfl
@[simp] theorem setPc_deviceIn (s : State) (t : Word) : (s.setPc t).deviceIn = s.deviceIn := rfl
@[simp] theorem setPc_envLog (s : State) (t : Word) : (s.setPc t).envLog = s.envLog := rfl
@[simp] theorem setPc_draws (s : State) (t : Word) : (s.setPc t).draws = s.draws := rfl

@[simp] theorem setCcr_regs (s : State) (c : Byte) : (s.setCcr c).regs = s.regs := rfl
@[simp] theorem setCcr_pc (s : State) (c : Byte) : (s.setCcr c).pc = s.pc := rfl
@[simp] theorem setCcr_ccr (s : State) (c : Byte) : (s.setCcr c).ccr = c := rfl
@[simp] theorem setCcr_mode (s : State) (c : Byte) : (s.setCcr c).mode = s.mode := rfl
@[simp] theorem setCcr_holdOff (s : State) (c : Byte) : (s.setCcr c).holdOff = s.holdOff := rfl
@[simp] theorem setCcr_mem (s : State) (c : Byte) : (s.setCcr c).mem = s.mem := rfl
@[simp] theorem setCcr_chip (s : State) (c : Byte) : (s.setCcr c).chip = s.chip := rfl
@[simp] theorem setCcr_inputs (s : State) (c : Byte) : (s.setCcr c).inputs = s.inputs := rfl
@[simp] theorem setCcr_deviceIn (s : State) (c : Byte) : (s.setCcr c).deviceIn = s.deviceIn := rfl
@[simp] theorem setCcr_envLog (s : State) (c : Byte) : (s.setCcr c).envLog = s.envLog := rfl
@[simp] theorem setCcr_draws (s : State) (c : Byte) : (s.setCcr c).draws = s.draws := rfl

@[simp] theorem setMode_regs (s : State) (m : Mode) : (s.setMode m).regs = s.regs := rfl
@[simp] theorem setMode_pc (s : State) (m : Mode) : (s.setMode m).pc = s.pc := rfl
@[simp] theorem setMode_ccr (s : State) (m : Mode) : (s.setMode m).ccr = s.ccr := rfl
@[simp] theorem setMode_mode (s : State) (m : Mode) : (s.setMode m).mode = m := rfl
@[simp] theorem setMode_holdOff (s : State) (m : Mode) : (s.setMode m).holdOff = s.holdOff := rfl
@[simp] theorem setMode_mem (s : State) (m : Mode) : (s.setMode m).mem = s.mem := rfl
@[simp] theorem setMode_chip (s : State) (m : Mode) : (s.setMode m).chip = s.chip := rfl
@[simp] theorem setMode_inputs (s : State) (m : Mode) : (s.setMode m).inputs = s.inputs := rfl
@[simp] theorem setMode_deviceIn (s : State) (m : Mode) : (s.setMode m).deviceIn = s.deviceIn := rfl
@[simp] theorem setMode_envLog (s : State) (m : Mode) : (s.setMode m).envLog = s.envLog := rfl
@[simp] theorem setMode_draws (s : State) (m : Mode) : (s.setMode m).draws = s.draws := rfl

@[simp] theorem advance_regs (s : State) (len : Word) : (s.advance len).regs = s.regs := rfl
@[simp] theorem advance_pc (s : State) (len : Word) : (s.advance len).pc = (s.pc + len) &&& 0xFFFE#16 := rfl
@[simp] theorem advance_ccr (s : State) (len : Word) : (s.advance len).ccr = s.ccr := rfl
@[simp] theorem advance_mode (s : State) (len : Word) : (s.advance len).mode = s.mode := rfl
@[simp] theorem advance_holdOff (s : State) (len : Word) : (s.advance len).holdOff = s.holdOff := rfl
@[simp] theorem advance_mem (s : State) (len : Word) : (s.advance len).mem = s.mem := rfl
@[simp] theorem advance_chip (s : State) (len : Word) : (s.advance len).chip = s.chip := rfl
@[simp] theorem advance_inputs (s : State) (len : Word) : (s.advance len).inputs = s.inputs := rfl
@[simp] theorem advance_deviceIn (s : State) (len : Word) : (s.advance len).deviceIn = s.deviceIn := rfl
@[simp] theorem advance_envLog (s : State) (len : Word) : (s.advance len).envLog = s.envLog := rfl
@[simp] theorem advance_draws (s : State) (len : Word) : (s.advance len).draws = s.draws := rfl

@[simp] theorem poke_regs (s : State) (a : Word) (v : Byte) : (s.poke a v).regs = s.regs := rfl
@[simp] theorem poke_pc (s : State) (a : Word) (v : Byte) : (s.poke a v).pc = s.pc := rfl
@[simp] theorem poke_ccr (s : State) (a : Word) (v : Byte) : (s.poke a v).ccr = s.ccr := rfl
@[simp] theorem poke_mode (s : State) (a : Word) (v : Byte) : (s.poke a v).mode = s.mode := rfl
@[simp] theorem poke_holdOff (s : State) (a : Word) (v : Byte) : (s.poke a v).holdOff = s.holdOff := rfl
@[simp] theorem poke_mem (s : State) (a : Word) (v : Byte) : (s.poke a v).mem = Memory.write s.mem a.toNat v := rfl
@[simp] theorem poke_chip (s : State) (a : Word) (v : Byte) : (s.poke a v).chip = s.chip := rfl
@[simp] theorem poke_inputs (s : State) (a : Word) (v : Byte) : (s.poke a v).inputs = s.inputs := rfl
@[simp] theorem poke_deviceIn (s : State) (a : Word) (v : Byte) : (s.poke a v).deviceIn = s.deviceIn := rfl
@[simp] theorem poke_envLog (s : State) (a : Word) (v : Byte) : (s.poke a v).envLog = s.envLog := rfl
@[simp] theorem poke_draws (s : State) (a : Word) (v : Byte) : (s.poke a v).draws = s.draws := rfl

@[simp] theorem draw_regs (s : State) (w : Nat) : (s.draw w).2.regs = s.regs := rfl
@[simp] theorem draw_pc (s : State) (w : Nat) : (s.draw w).2.pc = s.pc := rfl
@[simp] theorem draw_ccr (s : State) (w : Nat) : (s.draw w).2.ccr = s.ccr := rfl
@[simp] theorem draw_mode (s : State) (w : Nat) : (s.draw w).2.mode = s.mode := rfl
@[simp] theorem draw_holdOff (s : State) (w : Nat) : (s.draw w).2.holdOff = s.holdOff := rfl
@[simp] theorem draw_mem (s : State) (w : Nat) : (s.draw w).2.mem = s.mem := rfl
@[simp] theorem draw_chip (s : State) (w : Nat) : (s.draw w).2.chip = s.chip := rfl
@[simp] theorem draw_inputs (s : State) (w : Nat) : (s.draw w).2.inputs = s.inputs := rfl
@[simp] theorem draw_deviceIn (s : State) (w : Nat) : (s.draw w).2.deviceIn = s.deviceIn := rfl
@[simp] theorem draw_envLog (s : State) (w : Nat) : (s.draw w).2.envLog = s.envLog := rfl
@[simp] theorem draw_draws (s : State) (w : Nat) : (s.draw w).2.draws = s.draws + 1 := rfl

@[simp] theorem pastBoundary_regs (s : State) : (s.pastBoundary).regs = s.regs := rfl
@[simp] theorem pastBoundary_pc (s : State) : (s.pastBoundary).pc = s.pc := rfl
@[simp] theorem pastBoundary_ccr (s : State) : (s.pastBoundary).ccr = s.ccr := rfl
@[simp] theorem pastBoundary_mode (s : State) : (s.pastBoundary).mode = s.mode := rfl
@[simp] theorem pastBoundary_holdOff (s : State) : (s.pastBoundary).holdOff = s.holdOff := rfl
@[simp] theorem pastBoundary_mem (s : State) : (s.pastBoundary).mem = s.mem := rfl
@[simp] theorem pastBoundary_chip (s : State) : (s.pastBoundary).chip = s.chip := rfl
@[simp] theorem pastBoundary_inputs (s : State) : (s.pastBoundary).inputs = s.inputs.tail := rfl
@[simp] theorem pastBoundary_deviceIn (s : State) : (s.pastBoundary).deviceIn = s.deviceIn := rfl
@[simp] theorem pastBoundary_envLog (s : State) : (s.pastBoundary).envLog = s.envLog := rfl
@[simp] theorem pastBoundary_draws (s : State) : (s.pastBoundary).draws = s.draws := rfl

@[simp] theorem setRegB_pc (s : State) (r : Reg8) (v : Byte) : (s.setRegB r v).pc = s.pc := by
  cases r <;> rfl
@[simp] theorem setRegB_ccr (s : State) (r : Reg8) (v : Byte) : (s.setRegB r v).ccr = s.ccr := by
  cases r <;> rfl
@[simp] theorem setRegB_mode (s : State) (r : Reg8) (v : Byte) : (s.setRegB r v).mode = s.mode := by
  cases r <;> rfl
@[simp] theorem setRegB_holdOff (s : State) (r : Reg8) (v : Byte) : (s.setRegB r v).holdOff = s.holdOff := by
  cases r <;> rfl
@[simp] theorem setRegB_mem (s : State) (r : Reg8) (v : Byte) : (s.setRegB r v).mem = s.mem := by
  cases r <;> rfl
@[simp] theorem setRegB_chip (s : State) (r : Reg8) (v : Byte) : (s.setRegB r v).chip = s.chip := by
  cases r <;> rfl
@[simp] theorem setRegB_inputs (s : State) (r : Reg8) (v : Byte) : (s.setRegB r v).inputs = s.inputs := by
  cases r <;> rfl
@[simp] theorem setRegB_deviceIn (s : State) (r : Reg8) (v : Byte) : (s.setRegB r v).deviceIn = s.deviceIn := by
  cases r <;> rfl
@[simp] theorem setRegB_envLog (s : State) (r : Reg8) (v : Byte) : (s.setRegB r v).envLog = s.envLog := by
  cases r <;> rfl
@[simp] theorem setRegB_draws (s : State) (r : Reg8) (v : Byte) : (s.setRegB r v).draws = s.draws := by
  cases r <;> rfl

@[simp] theorem draw_fst (s : State) (w : Nat) : (s.draw w).1 = Config.anyBits w s.draws := rfl

/-! ### Reads of one field -/

@[simp] theorem setReg_peek (s : State) (n : Reg16) (v : Word) (x : Word) : (s.setReg n v).peek x = s.peek x := rfl
@[simp] theorem setPc_reg (s : State) (t : Word) (k : Reg16) : (s.setPc t).reg k = s.reg k := rfl
@[simp] theorem setPc_regB (s : State) (t : Word) (r : Reg8) : (s.setPc t).regB r = s.regB r := by
  cases r <;> rfl
@[simp] theorem setPc_peek (s : State) (t : Word) (x : Word) : (s.setPc t).peek x = s.peek x := rfl
@[simp] theorem setCcr_reg (s : State) (c : Byte) (k : Reg16) : (s.setCcr c).reg k = s.reg k := rfl
@[simp] theorem setCcr_regB (s : State) (c : Byte) (r : Reg8) : (s.setCcr c).regB r = s.regB r := by
  cases r <;> rfl
@[simp] theorem setCcr_peek (s : State) (c : Byte) (x : Word) : (s.setCcr c).peek x = s.peek x := rfl
@[simp] theorem setMode_reg (s : State) (m : Mode) (k : Reg16) : (s.setMode m).reg k = s.reg k := rfl
@[simp] theorem setMode_regB (s : State) (m : Mode) (r : Reg8) : (s.setMode m).regB r = s.regB r := by
  cases r <;> rfl
@[simp] theorem setMode_peek (s : State) (m : Mode) (x : Word) : (s.setMode m).peek x = s.peek x := rfl
@[simp] theorem advance_reg (s : State) (len : Word) (k : Reg16) : (s.advance len).reg k = s.reg k := rfl
@[simp] theorem advance_regB (s : State) (len : Word) (r : Reg8) : (s.advance len).regB r = s.regB r := by
  cases r <;> rfl
@[simp] theorem advance_peek (s : State) (len : Word) (x : Word) : (s.advance len).peek x = s.peek x := rfl
@[simp] theorem poke_reg (s : State) (a : Word) (v : Byte) (k : Reg16) : (s.poke a v).reg k = s.reg k := rfl
@[simp] theorem poke_regB (s : State) (a : Word) (v : Byte) (r : Reg8) : (s.poke a v).regB r = s.regB r := by
  cases r <;> rfl
@[simp] theorem draw_reg (s : State) (w : Nat) (k : Reg16) : (s.draw w).2.reg k = s.reg k := rfl
@[simp] theorem draw_regB (s : State) (w : Nat) (r : Reg8) : (s.draw w).2.regB r = s.regB r := by
  cases r <;> rfl
@[simp] theorem draw_peek (s : State) (w : Nat) (x : Word) : (s.draw w).2.peek x = s.peek x := rfl
@[simp] theorem pastBoundary_reg (s : State) (k : Reg16) : (s.pastBoundary).reg k = s.reg k := rfl
@[simp] theorem pastBoundary_regB (s : State) (r : Reg8) : (s.pastBoundary).regB r = s.regB r := by
  cases r <;> rfl
@[simp] theorem pastBoundary_peek (s : State) (x : Word) : (s.pastBoundary).peek x = s.peek x := rfl
@[simp] theorem setRegB_peek (s : State) (r : Reg8) (v : Byte) (x : Word) : (s.setRegB r v).peek x = s.peek x := by
  cases r <;> rfl

end Sys2Proof.Machine
end

