-- ==== Sys2Proof/Laws/Registers.lean ====
section
/-! SUPPORT. The halves of a word, and reads of a general register after a write (R20, R21). -/

namespace Sys2Proof

@[simp] theorem hi8_word (a b : Byte) : hi8 (word a b) = a := by
  ext i hi
  simp only [hi8, word, ← BitVec.getLsbD_eq_getElem, BitVec.getLsbD_extractLsb', BitVec.getLsbD_append]
  simp [hi]

@[simp] theorem lo8_word (a b : Byte) : lo8 (word a b) = b := by
  ext i hi
  simp only [lo8, word, ← BitVec.getLsbD_eq_getElem, BitVec.getLsbD_extractLsb', BitVec.getLsbD_append]
  simp [hi]

@[simp] theorem word_hi8_lo8 (w : Word) : word (hi8 w) (lo8 w) = w := by
  apply BitVec.eq_of_getLsbD_eq
  intro i hi
  simp only [word, hi8, lo8, BitVec.getLsbD_append, BitVec.getLsbD_extractLsb']
  by_cases h : i < 8
  · simp [h]
  · have h1 : i - 8 < 8 := by omega
    have h2 : 8 + (i - 8) = i := by omega
    simp [h, h1, h2]

namespace Machine

/-! ### 16-bit registers -/

@[simp] theorem get_set_same (f : RegFile) (n : Reg16) (v : Word) : (f.set n v).get n = v := by
  cases n <;> rfl

theorem get_set_ne (f : RegFile) {n k : Reg16} (v : Word) (h : k ≠ n) : (f.set n v).get k = f.get k := by
  cases n <;> cases k <;> first | rfl | exact absurd rfl h

@[simp] theorem reg_setReg_same (s : State) (n : Reg16) (v : Word) : (s.setReg n v).reg n = v :=
  get_set_same s.regs n v

theorem reg_setReg_ne (s : State) {n k : Reg16} (v : Word) (h : k ≠ n) : (s.setReg n v).reg k = s.reg k :=
  get_set_ne s.regs v h

/-! ### 8-bit registers -/

theorem regB_hi (s : State) (n : Reg16) : s.regB (.hi n) = hi8 (s.reg n) := rfl

theorem regB_lo (s : State) (n : Reg16) : s.regB (.lo n) = lo8 (s.reg n) := rfl

/-- A 16-bit register is the pair of its bytes (R21). -/
theorem reg_eq_word (s : State) (n : Reg16) : s.reg n = word (s.regB (.hi n)) (s.regB (.lo n)) := by
  simp [regB_hi, regB_lo]

@[simp] theorem regB_setReg_hi (s : State) (n : Reg16) (v : Word) : (s.setReg n v).regB (.hi n) = hi8 v := by
  simp [regB_hi]

@[simp] theorem regB_setReg_lo (s : State) (n : Reg16) (v : Word) : (s.setReg n v).regB (.lo n) = lo8 v := by
  simp [regB_lo]

theorem regB_setReg_ne (s : State) {n : Reg16} (v : Word) {r : Reg8} (h : r.pair ≠ n) :
    (s.setReg n v).regB r = s.regB r := by
  cases r <;> simp only [regB_hi, regB_lo] <;> exact congrArg _ (reg_setReg_ne s v h)

@[simp] theorem regB_setRegB_same (s : State) (r : Reg8) (v : Byte) : (s.setRegB r v).regB r = v := by
  cases r <;> simp [State.setRegB]

theorem regB_setRegB_ne (s : State) {r x : Reg8} (v : Byte) (h : x ≠ r) : (s.setRegB r v).regB x = s.regB x := by
  by_cases hp : x.pair = r.pair
  · cases r <;> cases x <;> simp only [Reg8.pair] at hp <;> subst hp <;>
      first | exact absurd rfl h | simp [State.setRegB, regB_hi, regB_lo]
  · cases r <;> exact regB_setReg_ne s _ hp

theorem reg_setRegB_ne (s : State) {r : Reg8} (v : Byte) {n : Reg16} (h : n ≠ r.pair) :
    (s.setRegB r v).reg n = s.reg n := by
  cases r <;> exact reg_setReg_ne s _ h

/-- Writing a 16-bit register changes no byte register but its two halves. -/
theorem regB_setReg_notMem (s : State) {n : Reg16} (v : Word) {r : Reg8} (h : r ∉ [Reg8.hi n, Reg8.lo n]) :
    (s.setReg n v).regB r = s.regB r := by
  apply regB_setReg_ne
  intro hp
  cases r <;> simp_all [Reg8.pair]

/-- Two states with the same register file read the same. -/
theorem reg_of_regs {s t : State} (h : t.regs = s.regs) (n : Reg16) : t.reg n = s.reg n := by
  rw [State.reg, State.reg, h]

theorem regB_of_regs {s t : State} (h : t.regs = s.regs) (r : Reg8) : t.regB r = s.regB r := by
  cases r <;> simp only [regB_hi, regB_lo, reg_of_regs h]

/-- Two states with the same memory read the same. -/
theorem peek_of_mem {s t : State} (h : t.mem = s.mem) (a : Word) : t.peek a = s.peek a := by
  rw [State.peek, State.peek, h]

/-- Two states with the same byte registers have the same 16-bit registers. -/
theorem reg_congr {s t : State} {n : Reg16} (hh : t.regB (.hi n) = s.regB (.hi n))
    (hl : t.regB (.lo n) = s.regB (.lo n)) : t.reg n = s.reg n := by
  rw [reg_eq_word, reg_eq_word, hh, hl]

end Machine

end Sys2Proof
end

