-- ==== Sys2Proof/Laws/Decode.lean ====
section
/-! SUPPORT. Bit fields put together and taken apart, and the register codes of R84 both ways. -/

namespace Sys2Proof

@[simp] theorem hi4_byte (a b : BitVec 4) : hi4 (byte a b) = a := by
  revert a b
  decide +kernel

@[simp] theorem lo4_byte (a b : BitVec 4) : lo4 (byte a b) = b := by
  revert a b
  decide +kernel

@[simp] theorem byte_hi4_lo4 (b : Byte) : byte (hi4 b) (lo4 b) = b := by
  revert b
  decide +kernel

@[simp] theorem top_nib (t : Bool) (x : BitVec 3) : top (nib t x) = t := by
  revert t x
  decide +kernel

@[simp] theorem low3_nib (t : Bool) (x : BitVec 3) : low3 (nib t x) = x := by
  revert t x
  decide +kernel

@[simp] theorem nib_top_low3 (n : BitVec 4) : nib (top n) (low3 n) = n := by
  revert n
  decide +kernel

@[simp] theorem reg16_ofCode_code (r : Reg16) : Reg16.ofCode r.code = r := by
  cases r <;> rfl

@[simp] theorem reg16_code_ofCode (c : BitVec 3) : (Reg16.ofCode c).code = c := by
  revert c
  decide +kernel

@[simp] theorem reg8_ofCode_code (r : Reg8) : Reg8.ofCode r.code = r := by
  cases r <;> simp [Reg8.code, Reg8.ofCode]

@[simp] theorem reg8_code_ofCode (c : BitVec 4) : (Reg8.ofCode c).code = c := by
  revert c
  decide +kernel

@[simp] theorem reg16_nib_code (t : Bool) (r : Reg16) : reg16 (nib t r.code) = r := by
  simp [reg16]

/-- A 16-bit register's code is its low three bits; with the selector bit it is the whole nibble (R94). -/
theorem nib_reg16 (n : BitVec 4) : nib (top n) (reg16 n).code = n := by
  simp [reg16]

/-- No first byte is both the start of a 4-byte form and undefined (R81, R95). -/
theorem undefinedFirst_of_isLong (b0 : Byte) (h : isLong b0 = true) : undefinedFirst b0 = false := by
  revert b0
  decide +kernel

end Sys2Proof
end

