-- ==== Sys2Proof/Laws/Flags.lean ====
section
/-! SUPPORT. The bits of CCR after each of the writes of Flags.lean (R31, R35). -/

namespace Sys2Proof.Machine

/-- A register is the pack of its bits. -/
@[simp] theorem pack_bits (r : Byte) :
    CCR.pack (CCR.i r) (CCR.u6 r) (CCR.h r) (CCR.u4 r) (CCR.n r) (CCR.z r) (CCR.v r) (CCR.c r) = r := by
  revert r
  decide +kernel

@[simp] theorem i_pack (i u6 h u4 n z v c : Bool) : CCR.i (CCR.pack i u6 h u4 n z v c) = i := by
  revert i u6 h u4 n z v c
  decide +kernel

@[simp] theorem u6_pack (i u6 h u4 n z v c : Bool) : CCR.u6 (CCR.pack i u6 h u4 n z v c) = u6 := by
  revert i u6 h u4 n z v c
  decide +kernel

@[simp] theorem h_pack (i u6 h u4 n z v c : Bool) : CCR.h (CCR.pack i u6 h u4 n z v c) = h := by
  revert i u6 h u4 n z v c
  decide +kernel

@[simp] theorem u4_pack (i u6 h u4 n z v c : Bool) : CCR.u4 (CCR.pack i u6 h u4 n z v c) = u4 := by
  revert i u6 h u4 n z v c
  decide +kernel

@[simp] theorem n_pack (i u6 h u4 n z v c : Bool) : CCR.n (CCR.pack i u6 h u4 n z v c) = n := by
  revert i u6 h u4 n z v c
  decide +kernel

@[simp] theorem z_pack (i u6 h u4 n z v c : Bool) : CCR.z (CCR.pack i u6 h u4 n z v c) = z := by
  revert i u6 h u4 n z v c
  decide +kernel

@[simp] theorem v_pack (i u6 h u4 n z v c : Bool) : CCR.v (CCR.pack i u6 h u4 n z v c) = v := by
  revert i u6 h u4 n z v c
  decide +kernel

@[simp] theorem c_pack (i u6 h u4 n z v c : Bool) : CCR.c (CCR.pack i u6 h u4 n z v c) = c := by
  revert i u6 h u4 n z v c
  decide +kernel

@[simp] theorem i_setHNZVC (r : Byte) (h n z v c : Bool) : CCR.i (CCR.setHNZVC r h n z v c) = CCR.i r := i_pack ..
@[simp] theorem u6_setHNZVC (r : Byte) (h n z v c : Bool) : CCR.u6 (CCR.setHNZVC r h n z v c) = CCR.u6 r := u6_pack ..
@[simp] theorem h_setHNZVC (r : Byte) (h n z v c : Bool) : CCR.h (CCR.setHNZVC r h n z v c) = h := h_pack ..
@[simp] theorem u4_setHNZVC (r : Byte) (h n z v c : Bool) : CCR.u4 (CCR.setHNZVC r h n z v c) = CCR.u4 r := u4_pack ..
@[simp] theorem n_setHNZVC (r : Byte) (h n z v c : Bool) : CCR.n (CCR.setHNZVC r h n z v c) = n := n_pack ..
@[simp] theorem z_setHNZVC (r : Byte) (h n z v c : Bool) : CCR.z (CCR.setHNZVC r h n z v c) = z := z_pack ..
@[simp] theorem v_setHNZVC (r : Byte) (h n z v c : Bool) : CCR.v (CCR.setHNZVC r h n z v c) = v := v_pack ..
@[simp] theorem c_setHNZVC (r : Byte) (h n z v c : Bool) : CCR.c (CCR.setHNZVC r h n z v c) = c := c_pack ..

@[simp] theorem i_setNZVC (r : Byte) (n z v c : Bool) : CCR.i (CCR.setNZVC r n z v c) = CCR.i r := i_pack ..
@[simp] theorem u6_setNZVC (r : Byte) (n z v c : Bool) : CCR.u6 (CCR.setNZVC r n z v c) = CCR.u6 r := u6_pack ..
@[simp] theorem h_setNZVC (r : Byte) (n z v c : Bool) : CCR.h (CCR.setNZVC r n z v c) = CCR.h r := h_pack ..
@[simp] theorem u4_setNZVC (r : Byte) (n z v c : Bool) : CCR.u4 (CCR.setNZVC r n z v c) = CCR.u4 r := u4_pack ..
@[simp] theorem n_setNZVC (r : Byte) (n z v c : Bool) : CCR.n (CCR.setNZVC r n z v c) = n := n_pack ..
@[simp] theorem z_setNZVC (r : Byte) (n z v c : Bool) : CCR.z (CCR.setNZVC r n z v c) = z := z_pack ..
@[simp] theorem v_setNZVC (r : Byte) (n z v c : Bool) : CCR.v (CCR.setNZVC r n z v c) = v := v_pack ..
@[simp] theorem c_setNZVC (r : Byte) (n z v c : Bool) : CCR.c (CCR.setNZVC r n z v c) = c := c_pack ..

@[simp] theorem i_setNZV (r : Byte) (n z v : Bool) : CCR.i (CCR.setNZV r n z v) = CCR.i r := i_pack ..
@[simp] theorem u6_setNZV (r : Byte) (n z v : Bool) : CCR.u6 (CCR.setNZV r n z v) = CCR.u6 r := u6_pack ..
@[simp] theorem h_setNZV (r : Byte) (n z v : Bool) : CCR.h (CCR.setNZV r n z v) = CCR.h r := h_pack ..
@[simp] theorem u4_setNZV (r : Byte) (n z v : Bool) : CCR.u4 (CCR.setNZV r n z v) = CCR.u4 r := u4_pack ..
@[simp] theorem n_setNZV (r : Byte) (n z v : Bool) : CCR.n (CCR.setNZV r n z v) = n := n_pack ..
@[simp] theorem z_setNZV (r : Byte) (n z v : Bool) : CCR.z (CCR.setNZV r n z v) = z := z_pack ..
@[simp] theorem v_setNZV (r : Byte) (n z v : Bool) : CCR.v (CCR.setNZV r n z v) = v := v_pack ..
@[simp] theorem c_setNZV (r : Byte) (n z v : Bool) : CCR.c (CCR.setNZV r n z v) = CCR.c r := c_pack ..

@[simp] theorem i_setNZ (r : Byte) (n z : Bool) : CCR.i (CCR.setNZ r n z) = CCR.i r := i_pack ..
@[simp] theorem u6_setNZ (r : Byte) (n z : Bool) : CCR.u6 (CCR.setNZ r n z) = CCR.u6 r := u6_pack ..
@[simp] theorem h_setNZ (r : Byte) (n z : Bool) : CCR.h (CCR.setNZ r n z) = CCR.h r := h_pack ..
@[simp] theorem u4_setNZ (r : Byte) (n z : Bool) : CCR.u4 (CCR.setNZ r n z) = CCR.u4 r := u4_pack ..
@[simp] theorem n_setNZ (r : Byte) (n z : Bool) : CCR.n (CCR.setNZ r n z) = n := n_pack ..
@[simp] theorem z_setNZ (r : Byte) (n z : Bool) : CCR.z (CCR.setNZ r n z) = z := z_pack ..
@[simp] theorem v_setNZ (r : Byte) (n z : Bool) : CCR.v (CCR.setNZ r n z) = CCR.v r := v_pack ..
@[simp] theorem c_setNZ (r : Byte) (n z : Bool) : CCR.c (CCR.setNZ r n z) = CCR.c r := c_pack ..

@[simp] theorem i_setZ (r : Byte) (z : Bool) : CCR.i (CCR.setZ r z) = CCR.i r := i_pack ..
@[simp] theorem u6_setZ (r : Byte) (z : Bool) : CCR.u6 (CCR.setZ r z) = CCR.u6 r := u6_pack ..
@[simp] theorem h_setZ (r : Byte) (z : Bool) : CCR.h (CCR.setZ r z) = CCR.h r := h_pack ..
@[simp] theorem u4_setZ (r : Byte) (z : Bool) : CCR.u4 (CCR.setZ r z) = CCR.u4 r := u4_pack ..
@[simp] theorem n_setZ (r : Byte) (z : Bool) : CCR.n (CCR.setZ r z) = CCR.n r := n_pack ..
@[simp] theorem z_setZ (r : Byte) (z : Bool) : CCR.z (CCR.setZ r z) = z := z_pack ..
@[simp] theorem v_setZ (r : Byte) (z : Bool) : CCR.v (CCR.setZ r z) = CCR.v r := v_pack ..
@[simp] theorem c_setZ (r : Byte) (z : Bool) : CCR.c (CCR.setZ r z) = CCR.c r := c_pack ..

@[simp] theorem i_setC (r : Byte) (c : Bool) : CCR.i (CCR.setC r c) = CCR.i r := i_pack ..
@[simp] theorem u6_setC (r : Byte) (c : Bool) : CCR.u6 (CCR.setC r c) = CCR.u6 r := u6_pack ..
@[simp] theorem h_setC (r : Byte) (c : Bool) : CCR.h (CCR.setC r c) = CCR.h r := h_pack ..
@[simp] theorem u4_setC (r : Byte) (c : Bool) : CCR.u4 (CCR.setC r c) = CCR.u4 r := u4_pack ..
@[simp] theorem n_setC (r : Byte) (c : Bool) : CCR.n (CCR.setC r c) = CCR.n r := n_pack ..
@[simp] theorem z_setC (r : Byte) (c : Bool) : CCR.z (CCR.setC r c) = CCR.z r := z_pack ..
@[simp] theorem v_setC (r : Byte) (c : Bool) : CCR.v (CCR.setC r c) = CCR.v r := v_pack ..
@[simp] theorem c_setC (r : Byte) (c : Bool) : CCR.c (CCR.setC r c) = c := c_pack ..

@[simp] theorem i_setI (r : Byte) (i : Bool) : CCR.i (CCR.setI r i) = i := i_pack ..
@[simp] theorem u6_setI (r : Byte) (i : Bool) : CCR.u6 (CCR.setI r i) = CCR.u6 r := u6_pack ..
@[simp] theorem h_setI (r : Byte) (i : Bool) : CCR.h (CCR.setI r i) = CCR.h r := h_pack ..
@[simp] theorem u4_setI (r : Byte) (i : Bool) : CCR.u4 (CCR.setI r i) = CCR.u4 r := u4_pack ..
@[simp] theorem n_setI (r : Byte) (i : Bool) : CCR.n (CCR.setI r i) = CCR.n r := n_pack ..
@[simp] theorem z_setI (r : Byte) (i : Bool) : CCR.z (CCR.setI r i) = CCR.z r := z_pack ..
@[simp] theorem v_setI (r : Byte) (i : Bool) : CCR.v (CCR.setI r i) = CCR.v r := v_pack ..
@[simp] theorem c_setI (r : Byte) (i : Bool) : CCR.c (CCR.setI r i) = CCR.c r := c_pack ..

@[simp] theorem i_moved {w : Nat} (r : Byte) (v : BitVec w) : CCR.i (CCR.moved r v) = CCR.i r := i_pack ..
@[simp] theorem u6_moved {w : Nat} (r : Byte) (v : BitVec w) : CCR.u6 (CCR.moved r v) = CCR.u6 r := u6_pack ..
@[simp] theorem h_moved {w : Nat} (r : Byte) (v : BitVec w) : CCR.h (CCR.moved r v) = CCR.h r := h_pack ..
@[simp] theorem u4_moved {w : Nat} (r : Byte) (v : BitVec w) : CCR.u4 (CCR.moved r v) = CCR.u4 r := u4_pack ..
@[simp] theorem n_moved {w : Nat} (r : Byte) (v : BitVec w) : CCR.n (CCR.moved r v) = v.msb := n_pack ..
@[simp] theorem z_moved {w : Nat} (r : Byte) (v : BitVec w) : CCR.z (CCR.moved r v) = (v == 0) := z_pack ..
@[simp] theorem v_moved {w : Nat} (r : Byte) (v : BitVec w) : CCR.v (CCR.moved r v) = false := v_pack ..
@[simp] theorem c_moved {w : Nat} (r : Byte) (v : BitVec w) : CCR.c (CCR.moved r v) = CCR.c r := c_pack ..

@[simp] theorem i_arith {w : Nat} (r : Byte) (x : Alu w) : CCR.i (CCR.arith r x) = CCR.i r := i_pack ..
@[simp] theorem u6_arith {w : Nat} (r : Byte) (x : Alu w) : CCR.u6 (CCR.arith r x) = CCR.u6 r := u6_pack ..
@[simp] theorem h_arith {w : Nat} (r : Byte) (x : Alu w) : CCR.h (CCR.arith r x) = x.h := h_pack ..
@[simp] theorem u4_arith {w : Nat} (r : Byte) (x : Alu w) : CCR.u4 (CCR.arith r x) = CCR.u4 r := u4_pack ..
@[simp] theorem n_arith {w : Nat} (r : Byte) (x : Alu w) : CCR.n (CCR.arith r x) = x.n := n_pack ..
@[simp] theorem z_arith {w : Nat} (r : Byte) (x : Alu w) : CCR.z (CCR.arith r x) = x.z := z_pack ..
@[simp] theorem v_arith {w : Nat} (r : Byte) (x : Alu w) : CCR.v (CCR.arith r x) = x.v := v_pack ..
@[simp] theorem c_arith {w : Nat} (r : Byte) (x : Alu w) : CCR.c (CCR.arith r x) = x.c := c_pack ..

@[simp] theorem i_extended {w : Nat} (r : Byte) (x : Alu w) : CCR.i (CCR.extended r x) = CCR.i r := i_pack ..
@[simp] theorem u6_extended {w : Nat} (r : Byte) (x : Alu w) : CCR.u6 (CCR.extended r x) = CCR.u6 r := u6_pack ..
@[simp] theorem h_extended {w : Nat} (r : Byte) (x : Alu w) : CCR.h (CCR.extended r x) = x.h := h_pack ..
@[simp] theorem u4_extended {w : Nat} (r : Byte) (x : Alu w) : CCR.u4 (CCR.extended r x) = CCR.u4 r := u4_pack ..
@[simp] theorem n_extended {w : Nat} (r : Byte) (x : Alu w) : CCR.n (CCR.extended r x) = x.n := n_pack ..
@[simp] theorem z_extended {w : Nat} (r : Byte) (x : Alu w) : CCR.z (CCR.extended r x) = (CCR.z r && x.z) := z_pack ..
@[simp] theorem v_extended {w : Nat} (r : Byte) (x : Alu w) : CCR.v (CCR.extended r x) = x.v := v_pack ..
@[simp] theorem c_extended {w : Nat} (r : Byte) (x : Alu w) : CCR.c (CCR.extended r x) = x.c := c_pack ..

@[simp] theorem i_shifted (r : Byte) (x : Shifted) : CCR.i (CCR.shifted r x) = CCR.i r := i_pack ..
@[simp] theorem u6_shifted (r : Byte) (x : Shifted) : CCR.u6 (CCR.shifted r x) = CCR.u6 r := u6_pack ..
@[simp] theorem h_shifted (r : Byte) (x : Shifted) : CCR.h (CCR.shifted r x) = CCR.h r := h_pack ..
@[simp] theorem u4_shifted (r : Byte) (x : Shifted) : CCR.u4 (CCR.shifted r x) = CCR.u4 r := u4_pack ..
@[simp] theorem n_shifted (r : Byte) (x : Shifted) : CCR.n (CCR.shifted r x) = x.value.msb := n_pack ..
@[simp] theorem z_shifted (r : Byte) (x : Shifted) : CCR.z (CCR.shifted r x) = (x.value == 0) := z_pack ..
@[simp] theorem v_shifted (r : Byte) (x : Shifted) : CCR.v (CCR.shifted r x) = x.v := v_pack ..
@[simp] theorem c_shifted (r : Byte) (x : Shifted) : CCR.c (CCR.shifted r x) = x.c := c_pack ..

/-- Two registers with the same eight bits are the same. -/
theorem ccr_ext {a b : Byte} (hi : CCR.i a = CCR.i b) (hu6 : CCR.u6 a = CCR.u6 b) (hh : CCR.h a = CCR.h b)
    (hu4 : CCR.u4 a = CCR.u4 b) (hn : CCR.n a = CCR.n b) (hz : CCR.z a = CCR.z b) (hv : CCR.v a = CCR.v b)
    (hc : CCR.c a = CCR.c b) : a = b := by
  rw [← pack_bits a, ← pack_bits b, hi, hu6, hh, hu4, hn, hz, hv, hc]

end Sys2Proof.Machine
end

