-- ==== Sys2Proof/Laws/Memory.lean ====
section
/-! SUPPORT. The contents of memory after a write, and the canonical form every memory operation keeps (R50, R55, R56;
log 7). -/

namespace Sys2Proof.Machine

/-! ### Reads after a write -/

@[simp] theorem lookup_write_same (m : List Host.Cell) (a : Nat) (v : Byte) :
    Memory.lookup (Memory.write m a v) a = some v := by
  induction m with
  | nil => simp [Memory.write, Memory.lookup]
  | cons p rest ih =>
    obtain ⟨k, w⟩ := p
    simp only [Memory.write]
    split
    · simp [Memory.lookup]
    · split
      · simp [Memory.lookup]
      · simp_all [Memory.lookup]

theorem lookup_write_ne (m : List Host.Cell) {a b : Nat} (v : Byte) (h : b ≠ a) :
    Memory.lookup (Memory.write m a v) b = Memory.lookup m b := by
  induction m with
  | nil => simp [Memory.write, Memory.lookup, Ne.symm h]
  | cons p rest ih =>
    obtain ⟨k, w⟩ := p
    simp only [Memory.write]
    split
    · simp [Memory.lookup, Ne.symm h]
    · split
      · simp_all [Memory.lookup, Ne.symm h]
      · simp_all [Memory.lookup]

@[simp] theorem peek_poke_same (s : State) (a : Word) (v : Byte) : (s.poke a v).peek a = v := by
  simp [State.peek, Memory.byteAt]

theorem peek_poke_ne (s : State) {a b : Word} (v : Byte) (h : b ≠ a) : (s.poke a v).peek b = s.peek b := by
  have hn : b.toNat ≠ a.toNat := fun he => h (BitVec.eq_of_toNat_eq he)
  simp [State.peek, Memory.byteAt, lookup_write_ne s.mem v hn]

/-! ### The canonical form -/

theorem risingFrom_write (m : List Host.Cell) (lo a : Nat) (v : Byte) (hm : Memory.risingFrom lo m = true)
    (hlo : lo ≤ a) (ha : a < 65536) : Memory.risingFrom lo (Memory.write m a v) = true := by
  induction m generalizing lo with
  | nil => simp [Memory.write, Memory.risingFrom, hlo, ha]
  | cons p rest ih =>
    obtain ⟨k, w⟩ := p
    simp only [Memory.risingFrom, Bool.and_eq_true, decide_eq_true_eq] at hm
    obtain ⟨⟨h1, h2⟩, h3⟩ := hm
    simp only [Memory.write]
    split
    · rename_i hlt
      simp only [Memory.risingFrom, Bool.and_eq_true, decide_eq_true_eq]
      exact ⟨⟨hlo, ha⟩, ⟨by omega, h2⟩, h3⟩
    · split
      · rename_i hka
        subst hka
        simp only [Memory.risingFrom, Bool.and_eq_true, decide_eq_true_eq]
        exact ⟨⟨hlo, ha⟩, h3⟩
      · simp only [Memory.risingFrom, Bool.and_eq_true, decide_eq_true_eq]
        exact ⟨⟨h1, h2⟩, ih (k + 1) h3 (by omega)⟩

/-- A write to memory keeps the canonical form. -/
theorem wf_write {m : List Host.Cell} (a : Word) (v : Byte) (h : Memory.wf m = true) :
    Memory.wf (Memory.write m a.toNat v) = true :=
  risingFrom_write m 0 a.toNat v h (Nat.zero_le _) (by have := a.isLt; omega)

/-- The memory right after reset is in canonical form. -/
theorem reset_mem_wf : Memory.wf State.reset.mem = true := rfl

/-- In canonical form an address below the start is not listed. -/
theorem lookup_below (m : List Host.Cell) (lo a : Nat) (hm : Memory.risingFrom lo m = true) (ha : a < lo) :
    Memory.lookup m a = none := by
  induction m generalizing lo with
  | nil => rfl
  | cons p rest ih =>
    obtain ⟨k, w⟩ := p
    simp only [Memory.risingFrom, Bool.and_eq_true, decide_eq_true_eq] at hm
    obtain ⟨⟨h1, _⟩, h3⟩ := hm
    have hne : k ≠ a := by omega
    simp [Memory.lookup, hne, ih (k + 1) h3 (by omega)]

/-- Equal memories are equal data: two canonical lists with the same contents are the same list. -/
theorem eq_of_lookup_eq (m n : List Host.Cell) (lo : Nat) (hm : Memory.risingFrom lo m = true)
    (hn : Memory.risingFrom lo n = true) (h : ∀ a, Memory.lookup m a = Memory.lookup n a) : m = n := by
  induction m generalizing lo n with
  | nil =>
    cases n with
    | nil => rfl
    | cons p rest => exact absurd (h p.1) (by obtain ⟨k, w⟩ := p; simp [Memory.lookup])
  | cons p rest ih =>
    obtain ⟨k, w⟩ := p
    cases n with
    | nil => exact absurd (h k) (by simp [Memory.lookup])
    | cons q rest' =>
      obtain ⟨k', w'⟩ := q
      simp only [Memory.risingFrom, Bool.and_eq_true, decide_eq_true_eq] at hm hn
      obtain ⟨⟨h1, h2⟩, h3⟩ := hm
      obtain ⟨⟨h1', h2'⟩, h3'⟩ := hn
      have hk : k = k' := by
        rcases Nat.lt_trichotomy k k' with hlt | heq | hgt
        · have := h k
          simp [Memory.lookup, Nat.ne_of_gt hlt, lookup_below rest' (k' + 1) k h3' (by omega)] at this
        · exact heq
        · have := h k'
          simp [Memory.lookup, Nat.ne_of_gt hgt, lookup_below rest (k + 1) k' h3 (by omega)] at this
      subst hk
      have hw : w = w' := by simpa [Memory.lookup] using h k
      subst hw
      have hr : rest = rest' := by
        apply ih rest' (k + 1) h3 h3'
        intro a
        by_cases ha : k = a
        · subst ha
          rw [lookup_below rest (k + 1) k h3 (by omega), lookup_below rest' (k + 1) k h3' (by omega)]
        · simpa [Memory.lookup, ha] using h a
      rw [hr]

end Sys2Proof.Machine
end

