-- ==== Sys2Proof/Laws/Ops.lean ====
section
/-! SUPPORT. For each shared operation over memory, the stack and the exceptions, what it can do, said once. -/

namespace Sys2Proof.Machine

/-! ### Reads -/

/-- A read changes at most the device's answers, the record of events and the counter of free values. -/
theorem loadByte_snd (s : State) (a : Word) :
    ∃ d e k, (s.loadByte a).2 = { s with deviceIn := d, envLog := e, draws := k } := by
  unfold State.loadByte
  cases s.chip.kindAt a
  · exact ⟨_, _, _, rfl⟩
  · exact ⟨_, _, _, rfl⟩
  · simp only [State.readDevice]
    cases s.deviceIn
    · exact ⟨_, _, _, rfl⟩
    · exact ⟨_, _, _, rfl⟩
  · exact ⟨_, _, _, rfl⟩

/-- The address reads as memory: ROM or RAM. -/
theorem loadByte_storage (s : State) (a : Word) (h : s.chip.kindAt a = .ram ∨ s.chip.kindAt a = .rom) :
    s.loadByte a = (s.peek a, s) := by
  rcases h with h | h <;> simp [State.loadByte, h]

@[simp] theorem loadByte_regs (s : State) (a : Word) : (s.loadByte a).2.regs = s.regs := by
  obtain ⟨d, e, k, h⟩ := loadByte_snd s a
  rw [h]

@[simp] theorem loadByte_pc (s : State) (a : Word) : (s.loadByte a).2.pc = s.pc := by
  obtain ⟨d, e, k, h⟩ := loadByte_snd s a
  rw [h]

@[simp] theorem loadByte_ccr (s : State) (a : Word) : (s.loadByte a).2.ccr = s.ccr := by
  obtain ⟨d, e, k, h⟩ := loadByte_snd s a
  rw [h]

@[simp] theorem loadByte_mode (s : State) (a : Word) : (s.loadByte a).2.mode = s.mode := by
  obtain ⟨d, e, k, h⟩ := loadByte_snd s a
  rw [h]

@[simp] theorem loadByte_holdOff (s : State) (a : Word) : (s.loadByte a).2.holdOff = s.holdOff := by
  obtain ⟨d, e, k, h⟩ := loadByte_snd s a
  rw [h]

@[simp] theorem loadByte_mem (s : State) (a : Word) : (s.loadByte a).2.mem = s.mem := by
  obtain ⟨d, e, k, h⟩ := loadByte_snd s a
  rw [h]

@[simp] theorem loadByte_chip (s : State) (a : Word) : (s.loadByte a).2.chip = s.chip := by
  obtain ⟨d, e, k, h⟩ := loadByte_snd s a
  rw [h]

@[simp] theorem loadByte_inputs (s : State) (a : Word) : (s.loadByte a).2.inputs = s.inputs := by
  obtain ⟨d, e, k, h⟩ := loadByte_snd s a
  rw [h]

@[simp] theorem loadByte_reg (s : State) (a : Word) (n : Reg16) : (s.loadByte a).2.reg n = s.reg n := by
  simp [State.reg]

@[simp] theorem loadByte_regB (s : State) (a : Word) (r : Reg8) : (s.loadByte a).2.regB r = s.regB r := by
  cases r <;> simp [regB_hi, regB_lo]

@[simp] theorem loadByte_peek (s : State) (a x : Word) : (s.loadByte a).2.peek x = s.peek x := by
  simp [State.peek]

/-- A read does not look at the registers, PC, CCR, the operation state or the hold-off, and carries them along. -/
theorem loadByte_cpu (u : State) (a : Word) (r : RegFile) (p : Word) (c : Byte) (m : Mode) (h : Bool) :
    ({ u with regs := r, pc := p, ccr := c, mode := m, holdOff := h } : State).loadByte a =
      ((u.loadByte a).1, { (u.loadByte a).2 with regs := r, pc := p, ccr := c, mode := m, holdOff := h }) := by
  obtain ⟨_, _, _, _, _, _, chip, _, deviceIn, _, _⟩ := u
  unfold State.loadByte
  simp only [Chip.kindAt, Chip.regionAt]
  split <;> cases deviceIn <;> rfl

/-- A word read, when the region allows it, is the two byte reads at the even address, upper byte first. -/
theorem loadWord_ok (s : State) (a : Word) (h : s.chip.wordOk a = true) :
    s.loadWord a = .ok (word (s.loadByte (evenAddr a)).1 ((s.loadByte (evenAddr a)).2.loadByte (evenAddr a + 1#16)).1,
      ((s.loadByte (evenAddr a)).2.loadByte (evenAddr a + 1#16)).2) := by
  simp [State.loadWord, h]

/-- A word read is refused just where the region allows byte access only. -/
theorem loadWord_refused (s : State) (a : Word) (h : s.chip.wordOk a = false) :
    s.loadWord a = .error .wordAccessByteOnly := by
  simp [State.loadWord, h]

/-- A word read of ROM or RAM changes nothing. -/
theorem loadWord_storage (s : State) (a : Word) (h : s.chip.wordOk a = true)
    (h0 : s.chip.kindAt (evenAddr a) = .ram ∨ s.chip.kindAt (evenAddr a) = .rom)
    (h1 : s.chip.kindAt (evenAddr a + 1#16) = .ram ∨ s.chip.kindAt (evenAddr a + 1#16) = .rom) :
    s.loadWord a = .ok (word (s.peek (evenAddr a)) (s.peek (evenAddr a + 1#16)), s) := by
  simp [loadWord_ok s a h, loadByte_storage s _ h0, loadByte_storage s _ h1]

/-- All a word read can do, when it answers. -/
theorem loadWord_cases {s s1 : State} {a v : Word} (h : s.loadWord a = .ok (v, s1)) :
    s.chip.wordOk a = true ∧ ∃ d e k, s1 = { s with deviceIn := d, envLog := e, draws := k } := by
  cases hw : s.chip.wordOk a
  · simp [State.loadWord, hw] at h
  · refine ⟨rfl, ?_⟩
    rw [loadWord_ok s a hw] at h
    injection h with h
    injection h with _ h
    subst h
    obtain ⟨d, e, k, h1⟩ := loadByte_snd s (evenAddr a)
    obtain ⟨d', e', k', h2⟩ := loadByte_snd (s.loadByte (evenAddr a)).2 (evenAddr a + 1#16)
    exact ⟨d', e', k', by rw [h2, h1]⟩

/-! ### Writes -/

/-- A byte write changes at most memory, at one address, and the record of events. -/
theorem putByte_cases (s : State) (a : Word) (v : Byte) :
    s.putByte a v = s ∨ s.putByte a v = s.poke a v ∨
      s.putByte a v = { s with envLog := .deviceWrite a v :: s.envLog } := by
  unfold State.putByte
  cases s.chip.kindAt a <;> simp

/-- A byte write to RAM. -/
theorem putByte_ram (s : State) (a : Word) (v : Byte) (h : s.chip.kindAt a = .ram) : s.putByte a v = s.poke a v := by
  simp [State.putByte, h]

theorem putByte_eq (s : State) (a : Word) (v : Byte) :
    ∃ m e, s.putByte a v = { s with mem := m, envLog := e } := by
  rcases putByte_cases s a v with h | h | h <;> rw [h] <;> exact ⟨_, _, rfl⟩

@[simp] theorem putByte_regs (s : State) (a : Word) (v : Byte) : (s.putByte a v).regs = s.regs := by
  obtain ⟨m, e, h⟩ := putByte_eq s a v
  rw [h]

@[simp] theorem putByte_pc (s : State) (a : Word) (v : Byte) : (s.putByte a v).pc = s.pc := by
  obtain ⟨m, e, h⟩ := putByte_eq s a v
  rw [h]

@[simp] theorem putByte_ccr (s : State) (a : Word) (v : Byte) : (s.putByte a v).ccr = s.ccr := by
  obtain ⟨m, e, h⟩ := putByte_eq s a v
  rw [h]

@[simp] theorem putByte_mode (s : State) (a : Word) (v : Byte) : (s.putByte a v).mode = s.mode := by
  obtain ⟨m, e, h⟩ := putByte_eq s a v
  rw [h]

@[simp] theorem putByte_holdOff (s : State) (a : Word) (v : Byte) : (s.putByte a v).holdOff = s.holdOff := by
  obtain ⟨m, e, h⟩ := putByte_eq s a v
  rw [h]

@[simp] theorem putByte_chip (s : State) (a : Word) (v : Byte) : (s.putByte a v).chip = s.chip := by
  obtain ⟨m, e, h⟩ := putByte_eq s a v
  rw [h]

@[simp] theorem putByte_inputs (s : State) (a : Word) (v : Byte) : (s.putByte a v).inputs = s.inputs := by
  obtain ⟨m, e, h⟩ := putByte_eq s a v
  rw [h]

@[simp] theorem putByte_deviceIn (s : State) (a : Word) (v : Byte) : (s.putByte a v).deviceIn = s.deviceIn := by
  obtain ⟨m, e, h⟩ := putByte_eq s a v
  rw [h]

@[simp] theorem putByte_draws (s : State) (a : Word) (v : Byte) : (s.putByte a v).draws = s.draws := by
  obtain ⟨m, e, h⟩ := putByte_eq s a v
  rw [h]

@[simp] theorem putByte_reg (s : State) (a : Word) (v : Byte) (n : Reg16) : (s.putByte a v).reg n = s.reg n := by
  simp [State.reg]

@[simp] theorem putByte_regB (s : State) (a : Word) (v : Byte) (r : Reg8) : (s.putByte a v).regB r = s.regB r := by
  cases r <;> simp [regB_hi, regB_lo]

/-- A byte write leaves every other byte of storage alone. -/
theorem putByte_peek_ne (s : State) {a x : Word} (v : Byte) (h : x ≠ a) : (s.putByte a v).peek x = s.peek x := by
  rcases putByte_cases s a v with h' | h' | h' <;> rw [h']
  · exact peek_poke_ne s v h
  · rfl

/-- A byte write keeps memory in canonical form. -/
theorem putByte_wf (s : State) (a : Word) (v : Byte) (h : Memory.wf s.mem = true) :
    Memory.wf (s.putByte a v).mem = true := by
  rcases putByte_cases s a v with h' | h' | h' <;> rw [h']
  · exact h
  · exact wf_write a v h
  · exact h

/-- A write does not look at the registers, PC, CCR, the operation state or the hold-off, and carries them along. -/
theorem putByte_cpu (u : State) (a : Word) (v : Byte) (r : RegFile) (p : Word) (c : Byte) (m : Mode) (h : Bool) :
    ({ u with regs := r, pc := p, ccr := c, mode := m, holdOff := h } : State).putByte a v =
      { u.putByte a v with regs := r, pc := p, ccr := c, mode := m, holdOff := h } := by
  unfold State.putByte
  simp only [Chip.kindAt, Chip.regionAt]
  split <;> rfl

/-- A byte store either meets the prefetched instruction and is refused, or is a byte write. -/
theorem storeByte_ok (s : State) (g : Option Word) (a : Word) (v : Byte) (h : s.hitsPrefetch g a = false) :
    s.storeByte g a v = .ok (s.putByte a v) := by
  simp [State.storeByte, h]

theorem storeByte_cases {s s1 : State} {g : Option Word} {a : Word} {v : Byte} (h : s.storeByte g a v = .ok s1) :
    s.hitsPrefetch g a = false ∧ s1 = s.putByte a v := by
  cases hp : s.hitsPrefetch g a <;> simp_all [State.storeByte]

/-- A word store is two byte writes, upper byte first, where it meets neither the prefetched instruction nor a
byte-only region. -/
theorem storeWord_ok (s : State) (g : Option Word) (a v : Word) (h0 : s.hitsPrefetch g (evenAddr a) = false)
    (h1 : s.hitsPrefetch g (evenAddr a + 1#16) = false) (hw : s.chip.wordOk a = true) :
    s.storeWord g a v = .ok ((s.putByte (evenAddr a) (hi8 v)).putByte (evenAddr a + 1#16) (lo8 v)) := by
  simp [State.storeWord, State.putWord, h0, h1, hw]

theorem storeWord_cases {s s1 : State} {g : Option Word} {a v : Word} (h : s.storeWord g a v = .ok s1) :
    s.hitsPrefetch g (evenAddr a) = false ∧ s.hitsPrefetch g (evenAddr a + 1#16) = false ∧ s.chip.wordOk a = true ∧
      s1 = (s.putByte (evenAddr a) (hi8 v)).putByte (evenAddr a + 1#16) (lo8 v) := by
  cases h0 : s.hitsPrefetch g (evenAddr a) <;> cases h1 : s.hitsPrefetch g (evenAddr a + 1#16) <;>
    cases hw : s.chip.wordOk a <;> simp_all [State.storeWord, State.putWord]

/-- The writes of an exception entry meet no prefetched instruction. -/
@[simp] theorem hitsPrefetch_none (s : State) (a : Word) : s.hitsPrefetch none a = false := rfl

/-! ### The stack -/

/-- All a push can do, when it answers. -/
theorem push16_cases {s s1 : State} {g : Option Word} {v : Word} (h : s.push16 g v = .ok s1) :
    ∃ m e, s1 = { s.setReg .r7 (s.reg .r7 - 2#16) with mem := m, envLog := e } ∧
      (Memory.wf s.mem = true → Memory.wf m = true) := by
  obtain ⟨_, _, _, h⟩ := storeWord_cases h
  obtain ⟨m, e, h1⟩ := putByte_eq (s.setReg .r7 (s.reg .r7 - 2#16)) (evenAddr (s.reg .r7 - 2#16)) (hi8 v)
  obtain ⟨m', e', h2⟩ := putByte_eq ((s.setReg .r7 (s.reg .r7 - 2#16)).putByte (evenAddr (s.reg .r7 - 2#16)) (hi8 v))
    (evenAddr (s.reg .r7 - 2#16) + 1#16) (lo8 v)
  refine ⟨m', e', by rw [h, h2, h1], fun hwf => ?_⟩
  have := putByte_wf _ (evenAddr (s.reg .r7 - 2#16) + 1#16) (lo8 v)
    (putByte_wf (s.setReg .r7 (s.reg .r7 - 2#16)) (evenAddr (s.reg .r7 - 2#16)) (hi8 v) hwf)
  rw [h2] at this
  exact this

/-- All a pop can do, when it answers. -/
theorem pop16_cases {s s1 : State} {v : Word} (h : s.pop16 = .ok (v, s1)) :
    s.chip.wordOk (s.reg .r7) = true ∧
      ∃ d e k, s1 = { s with deviceIn := d, envLog := e, draws := k }.setReg .r7 (s.reg .r7 + 2#16) := by
  unfold State.pop16 at h
  split at h
  · rename_i w s2 hl
    obtain ⟨hw, d, e, k, h2⟩ := loadWord_cases hl
    injection h with h
    injection h with _ h
    refine ⟨hw, d, e, k, ?_⟩
    rw [← h, h2]
    rfl
  · cases h

/-! ### Exceptions -/

/-- All a jump through a vector can do, when it answers. -/
theorem jumpThroughVector_cases {s s1 : State} {v : Word} (h : s.jumpThroughVector v = .ok s1) :
    ∃ d e k t, s1 = ({ s with deviceIn := d, envLog := e, draws := k }.setPc t).setMode .programExecution := by
  unfold State.jumpThroughVector at h
  split at h
  · rename_i t s2 hl
    obtain ⟨_, d, e, k, h2⟩ := loadWord_cases hl
    injection h with h
    exact ⟨d, e, k, t, by rw [← h, h2]⟩
  · cases h

/-- All the reset entry can do, when it answers (R334). -/
theorem takeReset_cases {s s1 : State} (h : s.takeReset = .ok s1) :
    s1.mem = s.mem ∧ s1.chip = s.chip ∧ s1.inputs = s.inputs ∧ s1.mode = .programExecution ∧ s1.holdOff = true ∧
      s1.pc.getLsbD 0 = false ∧ CCR.i s1.ccr = true := by
  unfold State.takeReset at h
  split at h
  · rename_i s2 hj
    obtain ⟨d, e, k, t, h2⟩ := jumpThroughVector_cases hj
    injection h with h
    subst h
    subst h2
    refine ⟨rfl, rfl, rfl, rfl, rfl, ?_, ?_⟩
    · simp
    · simp [State.scrambleRegs, State.scrambleCcr, State.setMode, State.setPc]
  · cases h

/-- All the push of a frame can do, when it answers (R338). -/
theorem pushFrame_cases {s s1 : State} (h : s.pushFrame = .ok s1) :
    ∃ r m e k, s1 = { s with regs := r, mem := m, envLog := e, draws := k } ∧
      (Memory.wf s.mem = true → Memory.wf m = true) := by
  unfold State.pushFrame at h
  split at h
  · rename_i s2 h2
    obtain ⟨m, e, h3, hw⟩ := push16_cases h2
    simp only [State.draw] at h
    obtain ⟨m', e', h4, hw'⟩ := push16_cases h
    subst h3
    exact ⟨_, m', e', _, h4, fun hm => hw' (hw hm)⟩
  · cases h

/-- All an interrupt entry can do, when it answers (R338). -/
theorem takeInterrupt_cases {s s1 : State} {src : IntSource} (h : s.takeInterrupt src = .ok s1) :
    ∃ r m d e k t, s1 =
        { s with
          regs := r, mem := m, deviceIn := d, envLog := e, draws := k, pc := t &&& 0xFFFE#16,
          ccr := CCR.setI s.ccr true, mode := .programExecution } ∧
      (Memory.wf s.mem = true → Memory.wf m = true) := by
  unfold State.takeInterrupt at h
  split at h
  · rename_i s2 h2
    obtain ⟨r, m, e, k, h3, hw⟩ := pushFrame_cases h2
    split at h
    · rename_i s3 h4
      obtain ⟨d', e', k', t, h5⟩ := jumpThroughVector_cases h4
      injection h with h
      subst h
      subst h5
      subst h3
      exact ⟨r, m, d', _, k', t, rfl, hw⟩
    · cases h
  · cases h

/-- All a return from an exception can do, when it answers (R300). -/
theorem returnFromException_cases {s s1 : State} (h : s.returnFromException = .ok s1) :
    ∃ r d e k c t, s1 =
      { s with regs := r, deviceIn := d, envLog := e, draws := k, ccr := c, pc := t &&& 0xFFFE#16 } := by
  unfold State.returnFromException at h
  split at h
  · rename_i w s2 h2
    obtain ⟨_, d, e, k, h3⟩ := pop16_cases h2
    split at h
    · rename_i t s3 h4
      obtain ⟨_, d', e', k', h5⟩ := pop16_cases h4
      injection h with h
      subst h
      subst h5
      subst h3
      exact ⟨_, d', e', k', hi8 w, t, rfl⟩
    · cases h
  · cases h

/-- An operation that may be `Undefined` goes on just when it answers. -/
theorem outcome_next {r : Except Refusal State} {s : State} (h : outcome r = .next s) : r = .ok s := by
  cases r with
  | ok t => simpa [outcome] using h
  | error e => simp [outcome] at h

end Sys2Proof.Machine
end

