-- ==== Sys2Proof/Laws/PerInstr.lean ====
section
/-! SUPPORT. Families of statements made for each instruction. -/

namespace Sys2Proof.Laws

/-- The first byte of an instruction's code starts an instruction, and says how long the code is: 4 bytes for the first
bytes of R81, else 2 (R80, R81, R95). -/
def EncodedLength.Statement (i : Instr) : Prop :=
  ∃ b0 rest, encode i = b0 :: rest ∧ undefinedFirst b0 = false ∧ rest.length = (if isLong b0 then 3 else 1)

/-- A code whose first byte holds a register number in its lower four bits. -/
theorem encodedLength_of_nibble {i : Instr} {b : Byte} (n : BitVec 4) (r : Reg8) (h : encode i = [byte n r.code, b])
    (hn : ∀ c, undefinedFirst (byte n c) = false ∧ isLong (byte n c) = false) : EncodedLength.Statement i :=
  ⟨_, _, h, (hn r.code).1, by rw [(hn r.code).2]; rfl⟩

theorem EncodedLength.movBReg (rs rd : Reg8) : EncodedLength.Statement (.movBReg rs rd) := ⟨_, _, rfl, rfl, rfl⟩

theorem EncodedLength.movBImm (imm : Byte) (rd : Reg8) : EncodedLength.Statement (.movBImm imm rd) :=
  encodedLength_of_nibble 0xF rd rfl (by decide +kernel)

theorem EncodedLength.movBInd (rm : Reg16) (rd : Reg8) : EncodedLength.Statement (.movBInd rm rd) := ⟨_, _, rfl, rfl, rfl⟩

theorem EncodedLength.movBDisp (disp : Word) (rm : Reg16) (rd : Reg8) : EncodedLength.Statement (.movBDisp disp rm rd) := ⟨_, _, rfl, rfl, rfl⟩

theorem EncodedLength.movBPostInc (rm : Reg16) (rd : Reg8) : EncodedLength.Statement (.movBPostInc rm rd) := ⟨_, _, rfl, rfl, rfl⟩

theorem EncodedLength.movBAbs8 (aa : Byte) (rd : Reg8) : EncodedLength.Statement (.movBAbs8 aa rd) :=
  encodedLength_of_nibble 0x2 rd rfl (by decide +kernel)

theorem EncodedLength.movBAbs16 (aa : Word) (rd : Reg8) : EncodedLength.Statement (.movBAbs16 aa rd) := ⟨_, _, rfl, rfl, rfl⟩

theorem EncodedLength.movBToInd (rs : Reg8) (rm : Reg16) : EncodedLength.Statement (.movBToInd rs rm) := ⟨_, _, rfl, rfl, rfl⟩

theorem EncodedLength.movBToDisp (rs : Reg8) (disp : Word) (rm : Reg16) : EncodedLength.Statement (.movBToDisp rs disp rm) := ⟨_, _, rfl, rfl, rfl⟩

theorem EncodedLength.movBPreDec (rs : Reg8) (rm : Reg16) : EncodedLength.Statement (.movBPreDec rs rm) := ⟨_, _, rfl, rfl, rfl⟩

theorem EncodedLength.movBToAbs8 (rs : Reg8) (aa : Byte) : EncodedLength.Statement (.movBToAbs8 rs aa) :=
  encodedLength_of_nibble 0x3 rs rfl (by decide +kernel)

theorem EncodedLength.movBToAbs16 (rs : Reg8) (aa : Word) : EncodedLength.Statement (.movBToAbs16 rs aa) := ⟨_, _, rfl, rfl, rfl⟩

theorem EncodedLength.movWReg (rs rd : Reg16) : EncodedLength.Statement (.movWReg rs rd) := ⟨_, _, rfl, rfl, rfl⟩

theorem EncodedLength.movWImm (imm : Word) (rd : Reg16) : EncodedLength.Statement (.movWImm imm rd) := ⟨_, _, rfl, rfl, rfl⟩

theorem EncodedLength.movWInd (rm rd : Reg16) : EncodedLength.Statement (.movWInd rm rd) := ⟨_, _, rfl, rfl, rfl⟩

theorem EncodedLength.movWDisp (disp : Word) (rm rd : Reg16) : EncodedLength.Statement (.movWDisp disp rm rd) := ⟨_, _, rfl, rfl, rfl⟩

theorem EncodedLength.movWPostInc (rm rd : Reg16) : EncodedLength.Statement (.movWPostInc rm rd) := ⟨_, _, rfl, rfl, rfl⟩

theorem EncodedLength.movWAbs16 (aa : Word) (rd : Reg16) : EncodedLength.Statement (.movWAbs16 aa rd) := ⟨_, _, rfl, rfl, rfl⟩

theorem EncodedLength.movWToInd (rs rm : Reg16) : EncodedLength.Statement (.movWToInd rs rm) := ⟨_, _, rfl, rfl, rfl⟩

theorem EncodedLength.movWToDisp (rs : Reg16) (disp : Word) (rm : Reg16) : EncodedLength.Statement (.movWToDisp rs disp rm) := ⟨_, _, rfl, rfl, rfl⟩

theorem EncodedLength.movWPreDec (rs rm : Reg16) : EncodedLength.Statement (.movWPreDec rs rm) := ⟨_, _, rfl, rfl, rfl⟩

theorem EncodedLength.movWToAbs16 (rs : Reg16) (aa : Word) : EncodedLength.Statement (.movWToAbs16 rs aa) := ⟨_, _, rfl, rfl, rfl⟩

theorem EncodedLength.pop (rd : Reg16) : EncodedLength.Statement (.pop rd) := ⟨_, _, rfl, rfl, rfl⟩

theorem EncodedLength.push (rs : Reg16) : EncodedLength.Statement (.push rs) := ⟨_, _, rfl, rfl, rfl⟩

theorem EncodedLength.addBImm (imm : Byte) (rd : Reg8) : EncodedLength.Statement (.addBImm imm rd) :=
  encodedLength_of_nibble 0x8 rd rfl (by decide +kernel)

theorem EncodedLength.addBReg (rs rd : Reg8) : EncodedLength.Statement (.addBReg rs rd) := ⟨_, _, rfl, rfl, rfl⟩

theorem EncodedLength.addW (rs rd : Reg16) : EncodedLength.Statement (.addW rs rd) := ⟨_, _, rfl, rfl, rfl⟩

theorem EncodedLength.addxImm (imm : Byte) (rd : Reg8) : EncodedLength.Statement (.addxImm imm rd) :=
  encodedLength_of_nibble 0x9 rd rfl (by decide +kernel)

theorem EncodedLength.addxReg (rs rd : Reg8) : EncodedLength.Statement (.addxReg rs rd) := ⟨_, _, rfl, rfl, rfl⟩

theorem EncodedLength.subxImm (imm : Byte) (rd : Reg8) : EncodedLength.Statement (.subxImm imm rd) :=
  encodedLength_of_nibble 0xB rd rfl (by decide +kernel)

theorem EncodedLength.subxReg (rs rd : Reg8) : EncodedLength.Statement (.subxReg rs rd) := ⟨_, _, rfl, rfl, rfl⟩

theorem EncodedLength.subB (rs rd : Reg8) : EncodedLength.Statement (.subB rs rd) := ⟨_, _, rfl, rfl, rfl⟩

theorem EncodedLength.subW (rs rd : Reg16) : EncodedLength.Statement (.subW rs rd) := ⟨_, _, rfl, rfl, rfl⟩

theorem EncodedLength.inc (rd : Reg8) : EncodedLength.Statement (.inc rd) := ⟨_, _, rfl, rfl, rfl⟩

theorem EncodedLength.dec (rd : Reg8) : EncodedLength.Statement (.dec rd) := ⟨_, _, rfl, rfl, rfl⟩

theorem EncodedLength.adds1 (rd : Reg16) : EncodedLength.Statement (.adds1 rd) := ⟨_, _, rfl, rfl, rfl⟩

theorem EncodedLength.adds2 (rd : Reg16) : EncodedLength.Statement (.adds2 rd) := ⟨_, _, rfl, rfl, rfl⟩

theorem EncodedLength.subs1 (rd : Reg16) : EncodedLength.Statement (.subs1 rd) := ⟨_, _, rfl, rfl, rfl⟩

theorem EncodedLength.subs2 (rd : Reg16) : EncodedLength.Statement (.subs2 rd) := ⟨_, _, rfl, rfl, rfl⟩

theorem EncodedLength.cmpBImm (imm : Byte) (rd : Reg8) : EncodedLength.Statement (.cmpBImm imm rd) :=
  encodedLength_of_nibble 0xA rd rfl (by decide +kernel)

theorem EncodedLength.cmpBReg (rs rd : Reg8) : EncodedLength.Statement (.cmpBReg rs rd) := ⟨_, _, rfl, rfl, rfl⟩

theorem EncodedLength.cmpW (rs rd : Reg16) : EncodedLength.Statement (.cmpW rs rd) := ⟨_, _, rfl, rfl, rfl⟩

theorem EncodedLength.daa (rd : Reg8) : EncodedLength.Statement (.daa rd) := ⟨_, _, rfl, rfl, rfl⟩

theorem EncodedLength.das (rd : Reg8) : EncodedLength.Statement (.das rd) := ⟨_, _, rfl, rfl, rfl⟩

theorem EncodedLength.mulxu (rs : Reg8) (rd : Reg16) : EncodedLength.Statement (.mulxu rs rd) := ⟨_, _, rfl, rfl, rfl⟩

theorem EncodedLength.divxu (rs : Reg8) (rd : Reg16) : EncodedLength.Statement (.divxu rs rd) := ⟨_, _, rfl, rfl, rfl⟩

theorem EncodedLength.neg (rd : Reg8) : EncodedLength.Statement (.neg rd) := ⟨_, _, rfl, rfl, rfl⟩

theorem EncodedLength.andImm (imm : Byte) (rd : Reg8) : EncodedLength.Statement (.andImm imm rd) :=
  encodedLength_of_nibble 0xE rd rfl (by decide +kernel)

theorem EncodedLength.andReg (rs rd : Reg8) : EncodedLength.Statement (.andReg rs rd) := ⟨_, _, rfl, rfl, rfl⟩

theorem EncodedLength.orImm (imm : Byte) (rd : Reg8) : EncodedLength.Statement (.orImm imm rd) :=
  encodedLength_of_nibble 0xC rd rfl (by decide +kernel)

theorem EncodedLength.orReg (rs rd : Reg8) : EncodedLength.Statement (.orReg rs rd) := ⟨_, _, rfl, rfl, rfl⟩

theorem EncodedLength.xorImm (imm : Byte) (rd : Reg8) : EncodedLength.Statement (.xorImm imm rd) :=
  encodedLength_of_nibble 0xD rd rfl (by decide +kernel)

theorem EncodedLength.xorReg (rs rd : Reg8) : EncodedLength.Statement (.xorReg rs rd) := ⟨_, _, rfl, rfl, rfl⟩

theorem EncodedLength.notB (rd : Reg8) : EncodedLength.Statement (.notB rd) := ⟨_, _, rfl, rfl, rfl⟩

theorem EncodedLength.shal (rd : Reg8) : EncodedLength.Statement (.shal rd) := ⟨_, _, rfl, rfl, rfl⟩

theorem EncodedLength.shar (rd : Reg8) : EncodedLength.Statement (.shar rd) := ⟨_, _, rfl, rfl, rfl⟩

theorem EncodedLength.shll (rd : Reg8) : EncodedLength.Statement (.shll rd) := ⟨_, _, rfl, rfl, rfl⟩

theorem EncodedLength.shlr (rd : Reg8) : EncodedLength.Statement (.shlr rd) := ⟨_, _, rfl, rfl, rfl⟩

theorem EncodedLength.rotl (rd : Reg8) : EncodedLength.Statement (.rotl rd) := ⟨_, _, rfl, rfl, rfl⟩

theorem EncodedLength.rotr (rd : Reg8) : EncodedLength.Statement (.rotr rd) := ⟨_, _, rfl, rfl, rfl⟩

theorem EncodedLength.rotxl (rd : Reg8) : EncodedLength.Statement (.rotxl rd) := ⟨_, _, rfl, rfl, rfl⟩

theorem EncodedLength.rotxr (rd : Reg8) : EncodedLength.Statement (.rotxr rd) := ⟨_, _, rfl, rfl, rfl⟩

theorem EncodedLength.bsetImmReg (bn : BitVec 3) (rd : Reg8) : EncodedLength.Statement (.bsetImmReg bn rd) := ⟨_, _, rfl, rfl, rfl⟩

theorem EncodedLength.bsetImmInd (bn : BitVec 3) (rm : Reg16) : EncodedLength.Statement (.bsetImmInd bn rm) := ⟨_, _, rfl, rfl, rfl⟩

theorem EncodedLength.bsetImmAbs (bn : BitVec 3) (aa : Byte) : EncodedLength.Statement (.bsetImmAbs bn aa) := ⟨_, _, rfl, rfl, rfl⟩

theorem EncodedLength.bsetRegReg (rn rd : Reg8) : EncodedLength.Statement (.bsetRegReg rn rd) := ⟨_, _, rfl, rfl, rfl⟩

theorem EncodedLength.bsetRegInd (rn : Reg8) (rm : Reg16) : EncodedLength.Statement (.bsetRegInd rn rm) := ⟨_, _, rfl, rfl, rfl⟩

theorem EncodedLength.bsetRegAbs (rn : Reg8) (aa : Byte) : EncodedLength.Statement (.bsetRegAbs rn aa) := ⟨_, _, rfl, rfl, rfl⟩

theorem EncodedLength.bclrImmReg (bn : BitVec 3) (rd : Reg8) : EncodedLength.Statement (.bclrImmReg bn rd) := ⟨_, _, rfl, rfl, rfl⟩

theorem EncodedLength.bclrImmInd (bn : BitVec 3) (rm : Reg16) : EncodedLength.Statement (.bclrImmInd bn rm) := ⟨_, _, rfl, rfl, rfl⟩

theorem EncodedLength.bclrImmAbs (bn : BitVec 3) (aa : Byte) : EncodedLength.Statement (.bclrImmAbs bn aa) := ⟨_, _, rfl, rfl, rfl⟩

theorem EncodedLength.bclrRegReg (rn rd : Reg8) : EncodedLength.Statement (.bclrRegReg rn rd) := ⟨_, _, rfl, rfl, rfl⟩

theorem EncodedLength.bclrRegInd (rn : Reg8) (rm : Reg16) : EncodedLength.Statement (.bclrRegInd rn rm) := ⟨_, _, rfl, rfl, rfl⟩

theorem EncodedLength.bclrRegAbs (rn : Reg8) (aa : Byte) : EncodedLength.Statement (.bclrRegAbs rn aa) := ⟨_, _, rfl, rfl, rfl⟩

theorem EncodedLength.bnotImmReg (bn : BitVec 3) (rd : Reg8) : EncodedLength.Statement (.bnotImmReg bn rd) := ⟨_, _, rfl, rfl, rfl⟩

theorem EncodedLength.bnotImmInd (bn : BitVec 3) (rm : Reg16) : EncodedLength.Statement (.bnotImmInd bn rm) := ⟨_, _, rfl, rfl, rfl⟩

theorem EncodedLength.bnotImmAbs (bn : BitVec 3) (aa : Byte) : EncodedLength.Statement (.bnotImmAbs bn aa) := ⟨_, _, rfl, rfl, rfl⟩

theorem EncodedLength.bnotRegReg (rn rd : Reg8) : EncodedLength.Statement (.bnotRegReg rn rd) := ⟨_, _, rfl, rfl, rfl⟩

theorem EncodedLength.bnotRegInd (rn : Reg8) (rm : Reg16) : EncodedLength.Statement (.bnotRegInd rn rm) := ⟨_, _, rfl, rfl, rfl⟩

theorem EncodedLength.bnotRegAbs (rn : Reg8) (aa : Byte) : EncodedLength.Statement (.bnotRegAbs rn aa) := ⟨_, _, rfl, rfl, rfl⟩

theorem EncodedLength.btstImmReg (bn : BitVec 3) (rd : Reg8) : EncodedLength.Statement (.btstImmReg bn rd) := ⟨_, _, rfl, rfl, rfl⟩

theorem EncodedLength.btstImmInd (bn : BitVec 3) (rm : Reg16) : EncodedLength.Statement (.btstImmInd bn rm) := ⟨_, _, rfl, rfl, rfl⟩

theorem EncodedLength.btstImmAbs (bn : BitVec 3) (aa : Byte) : EncodedLength.Statement (.btstImmAbs bn aa) := ⟨_, _, rfl, rfl, rfl⟩

theorem EncodedLength.btstRegReg (rn rd : Reg8) : EncodedLength.Statement (.btstRegReg rn rd) := ⟨_, _, rfl, rfl, rfl⟩

theorem EncodedLength.btstRegInd (rn : Reg8) (rm : Reg16) : EncodedLength.Statement (.btstRegInd rn rm) := ⟨_, _, rfl, rfl, rfl⟩

theorem EncodedLength.btstRegAbs (rn : Reg8) (aa : Byte) : EncodedLength.Statement (.btstRegAbs rn aa) := ⟨_, _, rfl, rfl, rfl⟩

theorem EncodedLength.bandReg (bn : BitVec 3) (rd : Reg8) : EncodedLength.Statement (.bandReg bn rd) := ⟨_, _, rfl, rfl, rfl⟩

theorem EncodedLength.bandInd (bn : BitVec 3) (rm : Reg16) : EncodedLength.Statement (.bandInd bn rm) := ⟨_, _, rfl, rfl, rfl⟩

theorem EncodedLength.bandAbs (bn : BitVec 3) (aa : Byte) : EncodedLength.Statement (.bandAbs bn aa) := ⟨_, _, rfl, rfl, rfl⟩

theorem EncodedLength.biandReg (bn : BitVec 3) (rd : Reg8) : EncodedLength.Statement (.biandReg bn rd) := ⟨_, _, rfl, rfl, rfl⟩

theorem EncodedLength.biandInd (bn : BitVec 3) (rm : Reg16) : EncodedLength.Statement (.biandInd bn rm) := ⟨_, _, rfl, rfl, rfl⟩

theorem EncodedLength.biandAbs (bn : BitVec 3) (aa : Byte) : EncodedLength.Statement (.biandAbs bn aa) := ⟨_, _, rfl, rfl, rfl⟩

theorem EncodedLength.borReg (bn : BitVec 3) (rd : Reg8) : EncodedLength.Statement (.borReg bn rd) := ⟨_, _, rfl, rfl, rfl⟩

theorem EncodedLength.borInd (bn : BitVec 3) (rm : Reg16) : EncodedLength.Statement (.borInd bn rm) := ⟨_, _, rfl, rfl, rfl⟩

theorem EncodedLength.borAbs (bn : BitVec 3) (aa : Byte) : EncodedLength.Statement (.borAbs bn aa) := ⟨_, _, rfl, rfl, rfl⟩

theorem EncodedLength.biorReg (bn : BitVec 3) (rd : Reg8) : EncodedLength.Statement (.biorReg bn rd) := ⟨_, _, rfl, rfl, rfl⟩

theorem EncodedLength.biorInd (bn : BitVec 3) (rm : Reg16) : EncodedLength.Statement (.biorInd bn rm) := ⟨_, _, rfl, rfl, rfl⟩

theorem EncodedLength.biorAbs (bn : BitVec 3) (aa : Byte) : EncodedLength.Statement (.biorAbs bn aa) := ⟨_, _, rfl, rfl, rfl⟩

theorem EncodedLength.bxorReg (bn : BitVec 3) (rd : Reg8) : EncodedLength.Statement (.bxorReg bn rd) := ⟨_, _, rfl, rfl, rfl⟩

theorem EncodedLength.bxorInd (bn : BitVec 3) (rm : Reg16) : EncodedLength.Statement (.bxorInd bn rm) := ⟨_, _, rfl, rfl, rfl⟩

theorem EncodedLength.bxorAbs (bn : BitVec 3) (aa : Byte) : EncodedLength.Statement (.bxorAbs bn aa) := ⟨_, _, rfl, rfl, rfl⟩

theorem EncodedLength.bixorReg (bn : BitVec 3) (rd : Reg8) : EncodedLength.Statement (.bixorReg bn rd) := ⟨_, _, rfl, rfl, rfl⟩

theorem EncodedLength.bixorInd (bn : BitVec 3) (rm : Reg16) : EncodedLength.Statement (.bixorInd bn rm) := ⟨_, _, rfl, rfl, rfl⟩

theorem EncodedLength.bixorAbs (bn : BitVec 3) (aa : Byte) : EncodedLength.Statement (.bixorAbs bn aa) := ⟨_, _, rfl, rfl, rfl⟩

theorem EncodedLength.bldReg (bn : BitVec 3) (rd : Reg8) : EncodedLength.Statement (.bldReg bn rd) := ⟨_, _, rfl, rfl, rfl⟩

theorem EncodedLength.bldInd (bn : BitVec 3) (rm : Reg16) : EncodedLength.Statement (.bldInd bn rm) := ⟨_, _, rfl, rfl, rfl⟩

theorem EncodedLength.bldAbs (bn : BitVec 3) (aa : Byte) : EncodedLength.Statement (.bldAbs bn aa) := ⟨_, _, rfl, rfl, rfl⟩

theorem EncodedLength.bildReg (bn : BitVec 3) (rd : Reg8) : EncodedLength.Statement (.bildReg bn rd) := ⟨_, _, rfl, rfl, rfl⟩

theorem EncodedLength.bildInd (bn : BitVec 3) (rm : Reg16) : EncodedLength.Statement (.bildInd bn rm) := ⟨_, _, rfl, rfl, rfl⟩

theorem EncodedLength.bildAbs (bn : BitVec 3) (aa : Byte) : EncodedLength.Statement (.bildAbs bn aa) := ⟨_, _, rfl, rfl, rfl⟩

theorem EncodedLength.bstReg (bn : BitVec 3) (rd : Reg8) : EncodedLength.Statement (.bstReg bn rd) := ⟨_, _, rfl, rfl, rfl⟩

theorem EncodedLength.bstInd (bn : BitVec 3) (rm : Reg16) : EncodedLength.Statement (.bstInd bn rm) := ⟨_, _, rfl, rfl, rfl⟩

theorem EncodedLength.bstAbs (bn : BitVec 3) (aa : Byte) : EncodedLength.Statement (.bstAbs bn aa) := ⟨_, _, rfl, rfl, rfl⟩

theorem EncodedLength.bistReg (bn : BitVec 3) (rd : Reg8) : EncodedLength.Statement (.bistReg bn rd) := ⟨_, _, rfl, rfl, rfl⟩

theorem EncodedLength.bistInd (bn : BitVec 3) (rm : Reg16) : EncodedLength.Statement (.bistInd bn rm) := ⟨_, _, rfl, rfl, rfl⟩

theorem EncodedLength.bistAbs (bn : BitVec 3) (aa : Byte) : EncodedLength.Statement (.bistAbs bn aa) := ⟨_, _, rfl, rfl, rfl⟩

theorem EncodedLength.bra (disp : Byte) : EncodedLength.Statement (.bra disp) := ⟨_, _, rfl, rfl, rfl⟩

theorem EncodedLength.brn (disp : Byte) : EncodedLength.Statement (.brn disp) := ⟨_, _, rfl, rfl, rfl⟩

theorem EncodedLength.bhi (disp : Byte) : EncodedLength.Statement (.bhi disp) := ⟨_, _, rfl, rfl, rfl⟩

theorem EncodedLength.bls (disp : Byte) : EncodedLength.Statement (.bls disp) := ⟨_, _, rfl, rfl, rfl⟩

theorem EncodedLength.bcc (disp : Byte) : EncodedLength.Statement (.bcc disp) := ⟨_, _, rfl, rfl, rfl⟩

theorem EncodedLength.bcs (disp : Byte) : EncodedLength.Statement (.bcs disp) := ⟨_, _, rfl, rfl, rfl⟩

theorem EncodedLength.bne (disp : Byte) : EncodedLength.Statement (.bne disp) := ⟨_, _, rfl, rfl, rfl⟩

theorem EncodedLength.beq (disp : Byte) : EncodedLength.Statement (.beq disp) := ⟨_, _, rfl, rfl, rfl⟩

theorem EncodedLength.bvc (disp : Byte) : EncodedLength.Statement (.bvc disp) := ⟨_, _, rfl, rfl, rfl⟩

theorem EncodedLength.bvs (disp : Byte) : EncodedLength.Statement (.bvs disp) := ⟨_, _, rfl, rfl, rfl⟩

theorem EncodedLength.bpl (disp : Byte) : EncodedLength.Statement (.bpl disp) := ⟨_, _, rfl, rfl, rfl⟩

theorem EncodedLength.bmi (disp : Byte) : EncodedLength.Statement (.bmi disp) := ⟨_, _, rfl, rfl, rfl⟩

theorem EncodedLength.bge (disp : Byte) : EncodedLength.Statement (.bge disp) := ⟨_, _, rfl, rfl, rfl⟩

theorem EncodedLength.blt (disp : Byte) : EncodedLength.Statement (.blt disp) := ⟨_, _, rfl, rfl, rfl⟩

theorem EncodedLength.bgt (disp : Byte) : EncodedLength.Statement (.bgt disp) := ⟨_, _, rfl, rfl, rfl⟩

theorem EncodedLength.ble (disp : Byte) : EncodedLength.Statement (.ble disp) := ⟨_, _, rfl, rfl, rfl⟩

theorem EncodedLength.jmpInd (rm : Reg16) : EncodedLength.Statement (.jmpInd rm) := ⟨_, _, rfl, rfl, rfl⟩

theorem EncodedLength.jmpAbs (aa : Word) : EncodedLength.Statement (.jmpAbs aa) := ⟨_, _, rfl, rfl, rfl⟩

theorem EncodedLength.jmpMemInd (aa : Byte) : EncodedLength.Statement (.jmpMemInd aa) := ⟨_, _, rfl, rfl, rfl⟩

theorem EncodedLength.bsr (disp : Byte) : EncodedLength.Statement (.bsr disp) := ⟨_, _, rfl, rfl, rfl⟩

theorem EncodedLength.jsrInd (rm : Reg16) : EncodedLength.Statement (.jsrInd rm) := ⟨_, _, rfl, rfl, rfl⟩

theorem EncodedLength.jsrAbs (aa : Word) : EncodedLength.Statement (.jsrAbs aa) := ⟨_, _, rfl, rfl, rfl⟩

theorem EncodedLength.jsrMemInd (aa : Byte) : EncodedLength.Statement (.jsrMemInd aa) := ⟨_, _, rfl, rfl, rfl⟩

theorem EncodedLength.rts : EncodedLength.Statement .rts := ⟨_, _, rfl, rfl, rfl⟩

theorem EncodedLength.rte : EncodedLength.Statement .rte := ⟨_, _, rfl, rfl, rfl⟩

theorem EncodedLength.sleep : EncodedLength.Statement .sleep := ⟨_, _, rfl, rfl, rfl⟩

theorem EncodedLength.ldcImm (imm : Byte) : EncodedLength.Statement (.ldcImm imm) := ⟨_, _, rfl, rfl, rfl⟩

theorem EncodedLength.ldcReg (rs : Reg8) : EncodedLength.Statement (.ldcReg rs) := ⟨_, _, rfl, rfl, rfl⟩

theorem EncodedLength.stc (rd : Reg8) : EncodedLength.Statement (.stc rd) := ⟨_, _, rfl, rfl, rfl⟩

theorem EncodedLength.andc (imm : Byte) : EncodedLength.Statement (.andc imm) := ⟨_, _, rfl, rfl, rfl⟩

theorem EncodedLength.orc (imm : Byte) : EncodedLength.Statement (.orc imm) := ⟨_, _, rfl, rfl, rfl⟩

theorem EncodedLength.xorc (imm : Byte) : EncodedLength.Statement (.xorc imm) := ⟨_, _, rfl, rfl, rfl⟩

theorem EncodedLength.nop : EncodedLength.Statement .nop := ⟨_, _, rfl, rfl, rfl⟩

theorem EncodedLength.eepmov : EncodedLength.Statement .eepmov := ⟨_, _, rfl, rfl, rfl⟩

end Sys2Proof.Laws
end

