-- ==== Sys2Proof/Tests/Slice0.lean ====
section
/-! SUPPORT. Our own tests: ill-formed terms refused, a word of every instruction decoded, rows of 95_test_vectors.md run
through one step, and a witness for the hypotheses of every statement. -/

-- One theorem after another: elaborated side by side, the tests hold up many threads, and each takes its own stack.
set_option Elab.async false

namespace Sys2Proof.Tests

open Sys2Proof.Machine

/-! ### Well-formedness (R107, R143, R144) -/

theorem test_wf_pop_has_one_spelling :
    Instr.wellFormed (.movWPostInc .r7 .r1) = false ∧ Instr.wellFormed (.pop .r1) = true := by decide

theorem test_wf_push_has_one_spelling :
    Instr.wellFormed (.movWPreDec .r1 .r7) = false ∧ Instr.wellFormed (.push .r1) = true := by decide

theorem test_wf_other_registers :
    Instr.wellFormed (.movWPostInc .r6 .r7) = true ∧ Instr.wellFormed (.movWPreDec .r7 .r6) = true := by decide

/-! ### Decoding: a word of every instruction, written from the encoding the spec gives its row (field values all
different: s = R1L or R3, d = R2H or R6, m = R5, n = R4L, bit number 5). -/

/-- Every word decodes to the instruction beside it. -/
def decodesAll (nbits : Nat) (words : List (Nat × Instr)) : Bool :=
  words.all (fun p => decodeTableWord nbits p.1 == some p.2)

theorem test_decode_mov_byte :
    decodesAll 16 [
      (0x0C92, .movBReg (.lo .r1) (.hi .r2)), (0xF2A5, .movBImm 0xA5 (.hi .r2)), (0x6852, .movBInd .r5 (.hi .r2)),
      (0x6C52, .movBPostInc .r5 (.hi .r2)), (0x22C0, .movBAbs8 0xC0 (.hi .r2)), (0x68D9, .movBToInd (.lo .r1) .r5),
      (0x6CD9, .movBPreDec (.lo .r1) .r5), (0x39C0, .movBToAbs8 (.lo .r1) 0xC0)] = true ∧
    decodesAll 32 [
      (0x6E52FFFE, .movBDisp 0xFFFE .r5 (.hi .r2)), (0x6A02FB80, .movBAbs16 0xFB80 (.hi .r2)),
      (0x6ED9FFFE, .movBToDisp (.lo .r1) 0xFFFE .r5), (0x6A89FB80, .movBToAbs16 (.lo .r1) 0xFB80)] = true :=
  by decide +kernel

theorem test_decode_mov_word_pop_push :
    decodesAll 16 [
      (0x0D36, .movWReg .r3 .r6), (0x6956, .movWInd .r5 .r6), (0x6D56, .movWPostInc .r5 .r6),
      (0x69D3, .movWToInd .r3 .r5), (0x6DD3, .movWPreDec .r3 .r5), (0x6D76, .pop .r6), (0x6DF3, .push .r3)] = true ∧
    decodesAll 32 [
      (0x79061234, .movWImm 0x1234 .r6), (0x6F56FFFE, .movWDisp 0xFFFE .r5 .r6), (0x6B06FB80, .movWAbs16 0xFB80 .r6),
      (0x6FD3FFFE, .movWToDisp .r3 0xFFFE .r5), (0x6B83FB80, .movWToAbs16 .r3 0xFB80)] = true :=
  by decide +kernel

theorem test_decode_arithmetic :
    decodesAll 16 [
      (0x82A5, .addBImm 0xA5 (.hi .r2)), (0x0892, .addBReg (.lo .r1) (.hi .r2)), (0x0936, .addW .r3 .r6),
      (0x92A5, .addxImm 0xA5 (.hi .r2)), (0x0E92, .addxReg (.lo .r1) (.hi .r2)), (0xB2A5, .subxImm 0xA5 (.hi .r2)),
      (0x1E92, .subxReg (.lo .r1) (.hi .r2)), (0x1892, .subB (.lo .r1) (.hi .r2)), (0x1936, .subW .r3 .r6),
      (0x0A02, .inc (.hi .r2)), (0x1A02, .dec (.hi .r2)), (0x0B06, .adds1 .r6), (0x0B86, .adds2 .r6),
      (0x1B06, .subs1 .r6), (0x1B86, .subs2 .r6), (0xA2A5, .cmpBImm 0xA5 (.hi .r2)),
      (0x1C92, .cmpBReg (.lo .r1) (.hi .r2)), (0x1D36, .cmpW .r3 .r6), (0x0F02, .daa (.hi .r2)),
      (0x1F02, .das (.hi .r2)), (0x5096, .mulxu (.lo .r1) .r6), (0x5196, .divxu (.lo .r1) .r6),
      (0x1782, .neg (.hi .r2))] = true :=
  by decide +kernel

theorem test_decode_logic :
    decodesAll 16 [
      (0xE2A5, .andImm 0xA5 (.hi .r2)), (0x1692, .andReg (.lo .r1) (.hi .r2)), (0xC2A5, .orImm 0xA5 (.hi .r2)),
      (0x1492, .orReg (.lo .r1) (.hi .r2)), (0xD2A5, .xorImm 0xA5 (.hi .r2)), (0x1592, .xorReg (.lo .r1) (.hi .r2)),
      (0x1702, .notB (.hi .r2))] = true :=
  by decide +kernel

theorem test_decode_shift :
    decodesAll 16 [
      (0x1082, .shal (.hi .r2)), (0x1182, .shar (.hi .r2)), (0x1002, .shll (.hi .r2)), (0x1102, .shlr (.hi .r2)),
      (0x1282, .rotl (.hi .r2)), (0x1382, .rotr (.hi .r2)), (0x1202, .rotxl (.hi .r2)), (0x1302, .rotxr (.hi .r2))] = true :=
  by decide +kernel

theorem test_decode_bit_write_and_test :
    decodesAll 16 [
      (0x7052, .bsetImmReg 5 (.hi .r2)), (0x60C2, .bsetRegReg (.lo .r4) (.hi .r2)),
      (0x7252, .bclrImmReg 5 (.hi .r2)), (0x62C2, .bclrRegReg (.lo .r4) (.hi .r2)),
      (0x7152, .bnotImmReg 5 (.hi .r2)), (0x61C2, .bnotRegReg (.lo .r4) (.hi .r2)),
      (0x7352, .btstImmReg 5 (.hi .r2)), (0x63C2, .btstRegReg (.lo .r4) (.hi .r2))] = true ∧
    decodesAll 32 [
      (0x7D507050, .bsetImmInd 5 .r5), (0x7FC07050, .bsetImmAbs 5 0xC0), (0x7D5060C0, .bsetRegInd (.lo .r4) .r5),
      (0x7FC060C0, .bsetRegAbs (.lo .r4) 0xC0), (0x7D507250, .bclrImmInd 5 .r5), (0x7FC07250, .bclrImmAbs 5 0xC0),
      (0x7D5062C0, .bclrRegInd (.lo .r4) .r5), (0x7FC062C0, .bclrRegAbs (.lo .r4) 0xC0),
      (0x7D507150, .bnotImmInd 5 .r5), (0x7FC07150, .bnotImmAbs 5 0xC0), (0x7D5061C0, .bnotRegInd (.lo .r4) .r5),
      (0x7FC061C0, .bnotRegAbs (.lo .r4) 0xC0), (0x7C507350, .btstImmInd 5 .r5), (0x7EC07350, .btstImmAbs 5 0xC0),
      (0x7C5063C0, .btstRegInd (.lo .r4) .r5), (0x7EC063C0, .btstRegAbs (.lo .r4) 0xC0)] = true :=
  by decide +kernel

theorem test_decode_bit_and_or_xor :
    decodesAll 16 [
      (0x7652, .bandReg 5 (.hi .r2)), (0x76D2, .biandReg 5 (.hi .r2)), (0x7452, .borReg 5 (.hi .r2)),
      (0x74D2, .biorReg 5 (.hi .r2)), (0x7552, .bxorReg 5 (.hi .r2)), (0x75D2, .bixorReg 5 (.hi .r2))] = true ∧
    decodesAll 32 [
      (0x7C507650, .bandInd 5 .r5), (0x7EC07650, .bandAbs 5 0xC0), (0x7C5076D0, .biandInd 5 .r5),
      (0x7EC076D0, .biandAbs 5 0xC0), (0x7C507450, .borInd 5 .r5), (0x7EC07450, .borAbs 5 0xC0),
      (0x7C5074D0, .biorInd 5 .r5), (0x7EC074D0, .biorAbs 5 0xC0), (0x7C507550, .bxorInd 5 .r5),
      (0x7EC07550, .bxorAbs 5 0xC0), (0x7C5075D0, .bixorInd 5 .r5), (0x7EC075D0, .bixorAbs 5 0xC0)] = true :=
  by decide +kernel

theorem test_decode_bit_load_and_store :
    decodesAll 16 [
      (0x7752, .bldReg 5 (.hi .r2)), (0x77D2, .bildReg 5 (.hi .r2)), (0x6752, .bstReg 5 (.hi .r2)),
      (0x67D2, .bistReg 5 (.hi .r2))] = true ∧
    decodesAll 32 [
      (0x7C507750, .bldInd 5 .r5), (0x7EC07750, .bldAbs 5 0xC0), (0x7C5077D0, .bildInd 5 .r5),
      (0x7EC077D0, .bildAbs 5 0xC0), (0x7D506750, .bstInd 5 .r5), (0x7FC06750, .bstAbs 5 0xC0),
      (0x7D5067D0, .bistInd 5 .r5), (0x7FC067D0, .bistAbs 5 0xC0)] = true :=
  by decide +kernel

theorem test_decode_branch :
    decodesAll 16 [
      (0x407E, .bra 0x7E), (0x417E, .brn 0x7E), (0x427E, .bhi 0x7E), (0x437E, .bls 0x7E), (0x447E, .bcc 0x7E),
      (0x457E, .bcs 0x7E), (0x467E, .bne 0x7E), (0x477E, .beq 0x7E), (0x487E, .bvc 0x7E), (0x497E, .bvs 0x7E),
      (0x4A7E, .bpl 0x7E), (0x4B7E, .bmi 0x7E), (0x4C7E, .bge 0x7E), (0x4D7E, .blt 0x7E), (0x4E7E, .bgt 0x7E),
      (0x4F7E, .ble 0x7E), (0x5950, .jmpInd .r5), (0x5BC0, .jmpMemInd 0xC0), (0x557E, .bsr 0x7E),
      (0x5D50, .jsrInd .r5), (0x5FC0, .jsrMemInd 0xC0), (0x5470, .rts)] = true ∧
    decodesAll 32 [
      (0x5A00FB80, .jmpAbs 0xFB80), (0x5E00FB80, .jsrAbs 0xFB80)] = true :=
  by decide +kernel

theorem test_decode_system :
    decodesAll 16 [
      (0x5670, .rte), (0x0180, .sleep), (0x07A5, .ldcImm 0xA5), (0x0309, .ldcReg (.lo .r1)),
      (0x0202, .stc (.hi .r2)), (0x06A5, .andc 0xA5), (0x04A5, .orc 0xA5), (0x05A5, .xorc 0xA5), (0x0000, .nop)] = true :=
  by decide +kernel

theorem test_decode_block_transfer :
    decodesAll 32 [
      (0x7B5C598F, .eepmov)] = true :=
  by decide +kernel

theorem test_decode_undefined :
    [0x5200, 0x7A00, 0x0100, 0x0001, 0x5901, 0x0D80, 0x1748, 0x5008, 0x0210].all
        (fun w => decodeTableWord 16 w == none) = true ∧
      [0x5A010200, 0x6A40FB80, 0x79080000, 0x7B5C598E, 0x7EC07000, 0x7FC07300, 0x7C007308].all
        (fun w => decodeTableWord 32 w == none) = true := by
  decide +kernel

/-! ### Rows of 95_test_vectors.md, each one step, whole states compared -/

/-- One row of 95_test_vectors.md: the code at H'0100, the registers, CCR and the memory bytes before; the registers that
change, the bytes written, CCR and PC after. -/
structure Case where
  code : List Byte
  regs : List (Reg16 × Word)
  ccr : Byte
  mem : List (Word × Byte)
  regsAfter : List (Reg16 × Word)
  writes : List (Word × Byte)
  ccrAfter : Byte
  pcAfter : Word

/-- The state with the registers set. -/
def withRegs (s : State) (regs : List (Reg16 × Word)) : State :=
  regs.foldl (fun t p => t.setReg p.1 p.2) s

/-- The state with the bytes in memory. -/
def withBytes (s : State) (bytes : List (Word × Byte)) : State :=
  bytes.foldl (fun t p => t.poke p.1 p.2) s

/-- The bytes at consecutive addresses. -/
def placed (a : Word) (bytes : List Byte) : List (Word × Byte) :=
  match bytes with
  | [] => []
  | b :: rest => (a, b) :: placed (a + 1#16) rest

/-- The state before the step of a case: RAM everywhere, the code at H'0100. -/
def Case.start (c : Case) : State :=
  withBytes (withBytes (withRegs { State.reset with pc := 0x0100#16, ccr := c.ccr } c.regs)
    (placed 0x0100#16 c.code)) c.mem

/-- The step goes on to the state the case lists, all of it. -/
def Case.holds (c : Case) : Bool :=
  match step c.start with
  | .next t =>
    t == { withBytes (withRegs c.start c.regsAfter) c.writes with
      ccr := c.ccrAfter, pc := c.pcAfter, holdOff := false, mode := t.mode }
  | _ => false
/-- V3, V4, V6, V7, V8, V9, V10, V11, V12, V13, V14, V15, V16, V17, V18, V19, V20, V21, V22, V23, V24, V25, V26, V27,
V28, V29, V30, V31, V32. -/
theorem test_vectors_data_transfer : ([
      ⟨[0x0C, 0x81], [(.r0, 0x1280), (.r1, 0xFFFF)], 0x80, [], [(.r1, 0x80FF)], [], 0x88, 0x0102⟩,
      ⟨[0xF8, 0x00], [(.r0, 0x1234)], 0x8B, [], [(.r0, 0x1200)], [], 0x85, 0x0102⟩,
      ⟨[0x0D, 0x10], [(.r0, 0x1234), (.r1, 0x0000)], 0x89, [], [(.r0, 0x0000)], [], 0x85, 0x0102⟩,
      ⟨[0x79, 0x01, 0xFB, 0x80], [(.r1, 0x0000)], 0x80, [], [(.r1, 0xFB80)], [], 0x88, 0x0104⟩,
      ⟨[0x68, 0x1A], [(.r1, 0xFB80), (.r2, 0xAAAA)], 0x80, [(0xFB80, 0x7F)], [(.r2, 0xAA7F)], [], 0x80, 0x0102⟩,
      ⟨[0x69, 0x10], [(.r0, 0x0000), (.r1, 0xFB81)], 0x80, [(0xFB80, 0x12), (0xFB81, 0x34), (0xFB82, 0x56)],
        [(.r0, 0x1234)], [], 0x80, 0x0102⟩,
      ⟨[0x6E, 0x1A, 0x00, 0x02], [(.r1, 0xFB80), (.r2, 0x0000)], 0x80, [(0xFB82, 0x99)],
        [(.r2, 0x0099)], [], 0x88, 0x0104⟩,
      ⟨[0x6F, 0x10, 0xFF, 0xFE], [(.r0, 0x0000), (.r1, 0xFB82)], 0x80, [(0xFB80, 0x80), (0xFB81, 0x01)],
        [(.r0, 0x8001)], [], 0x88, 0x0104⟩,
      ⟨[0x6F, 0x10, 0x00, 0x04], [(.r0, 0x0000), (.r1, 0xFFFE)], 0x80, [(0x0002, 0xAB), (0x0003, 0xCD)],
        [(.r0, 0xABCD)], [], 0x88, 0x0104⟩,
      ⟨[0x6C, 0x1B], [(.r1, 0xFB80), (.r3, 0x0000)], 0x80, [(0xFB80, 0x10)],
        [(.r1, 0xFB81), (.r3, 0x0010)], [], 0x80, 0x0102⟩,
      ⟨[0x6C, 0x1B], [(.r1, 0xFFFF), (.r3, 0x0000)], 0x80, [(0xFFFF, 0x00)], [(.r1, 0x0000)], [], 0x84, 0x0102⟩,
      ⟨[0x6D, 0x10], [(.r0, 0x0000), (.r1, 0xFB80)], 0x80, [(0xFB80, 0x12), (0xFB81, 0x34)],
        [(.r0, 0x1234), (.r1, 0xFB82)], [], 0x80, 0x0102⟩,
      ⟨[0x28, 0xC0], [(.r0, 0x0000)], 0x80, [(0xFFC0, 0x80)], [(.r0, 0x0080)], [], 0x88, 0x0102⟩,
      ⟨[0x6A, 0x08, 0xFB, 0x80], [(.r0, 0xFF00)], 0x80, [(0xFB80, 0x01)], [(.r0, 0xFF01)], [], 0x80, 0x0104⟩,
      ⟨[0x6B, 0x00, 0xFB, 0x80], [(.r0, 0x0000)], 0x80, [(0xFB80, 0xFF), (0xFB81, 0xFE)],
        [(.r0, 0xFFFE)], [], 0x88, 0x0104⟩,
      ⟨[0x68, 0x98], [(.r0, 0x1280), (.r1, 0xFB80)], 0x80, [], [], [(0xFB80, 0x80)], 0x88, 0x0102⟩,
      ⟨[0x69, 0x90], [(.r0, 0x1234), (.r1, 0xFB81)], 0x80, [], [], [(0xFB80, 0x12), (0xFB81, 0x34)], 0x80, 0x0102⟩,
      ⟨[0x6E, 0x98, 0x00, 0x10], [(.r0, 0x0000), (.r1, 0xFB80)], 0x8A, [], [], [(0xFB90, 0x00)], 0x84, 0x0104⟩,
      ⟨[0x6F, 0x90, 0x00, 0x10], [(.r0, 0x8001), (.r1, 0xFB80)], 0x80, [],
        [], [(0xFB90, 0x80), (0xFB91, 0x01)], 0x88, 0x0104⟩,
      ⟨[0x6C, 0x98], [(.r0, 0x0055), (.r1, 0xFB80)], 0x80, [], [(.r1, 0xFB7F)], [(0xFB7F, 0x55)], 0x80, 0x0102⟩,
      ⟨[0x6D, 0x90], [(.r0, 0x1234), (.r1, 0xFB80)], 0x80, [],
        [(.r1, 0xFB7E)], [(0xFB7E, 0x12), (0xFB7F, 0x34)], 0x80, 0x0102⟩,
      ⟨[0x6D, 0x90], [(.r0, 0x1234), (.r1, 0x0000)], 0x80, [],
        [(.r1, 0xFFFE)], [(0xFFFE, 0x12), (0xFFFF, 0x34)], 0x80, 0x0102⟩,
      ⟨[0x38, 0xC0], [(.r0, 0x00A5)], 0x80, [], [], [(0xFFC0, 0xA5)], 0x88, 0x0102⟩,
      ⟨[0x6A, 0x88, 0xFB, 0x80], [(.r0, 0x00A5)], 0x80, [], [], [(0xFB80, 0xA5)], 0x88, 0x0104⟩,
      ⟨[0x6B, 0x80, 0xFB, 0x80], [(.r0, 0x1234)], 0x80, [], [], [(0xFB80, 0x12), (0xFB81, 0x34)], 0x80, 0x0104⟩,
      ⟨[0x6D, 0xF1], [(.r1, 0xBEEF), (.r7, 0xFF80)], 0x80, [],
        [(.r7, 0xFF7E)], [(0xFF7E, 0xBE), (0xFF7F, 0xEF)], 0x88, 0x0102⟩,
      ⟨[0x6D, 0x71], [(.r1, 0x0000), (.r7, 0xFF7E)], 0x80, [(0xFF7E, 0xBE), (0xFF7F, 0xEF)],
        [(.r1, 0xBEEF), (.r7, 0xFF80)], [], 0x88, 0x0102⟩,
      ⟨[0x6D, 0xF7], [(.r7, 0xFF80)], 0x80, [], [(.r7, 0xFF7E)], [(0xFF7E, 0xFF), (0xFF7F, 0x7E)], 0x88, 0x0102⟩,
      ⟨[0x6C, 0x99], [(.r1, 0xFB80)], 0x80, [], [(.r1, 0xFB7F)], [(0xFB7F, 0x7F)], 0x80, 0x0102⟩] : List Case).all Case.holds = true := by
  decide +kernel

/-- V38, V40, V41, V42, V44, V45, V46, V47, V48, V49, V50, V54, V57, V59, V60, V63, V65, V67, V68, V70, V81, V82, V84,
V88. -/
theorem test_vectors_arithmetic : ([
      ⟨[0x88, 0x01], [(.r0, 0x00FF)], 0x80, [], [(.r0, 0x0000)], [], 0xA5, 0x0102⟩,
      ⟨[0x08, 0x98], [(.r0, 0x0080), (.r1, 0x0080)], 0x80, [], [(.r0, 0x0000)], [], 0x87, 0x0102⟩,
      ⟨[0x08, 0x88], [(.r0, 0x0048)], 0x80, [], [(.r0, 0x0090)], [], 0xAA, 0x0102⟩,
      ⟨[0x09, 0x10], [(.r0, 0x0FFF), (.r1, 0x0001)], 0x80, [], [(.r0, 0x1000)], [], 0xA0, 0x0102⟩,
      ⟨[0x09, 0x10], [(.r0, 0x7FFF), (.r1, 0x0001)], 0x80, [], [(.r0, 0x8000)], [], 0xAA, 0x0102⟩,
      ⟨[0x90, 0x00], [(.r0, 0x1200)], 0x85, [], [(.r0, 0x1300)], [], 0x80, 0x0102⟩,
      ⟨[0x0E, 0x98], [(.r0, 0x00FF), (.r1, 0x0000)], 0x85, [], [(.r0, 0x0000)], [], 0xA5, 0x0102⟩,
      ⟨[0x0E, 0x98], [(.r0, 0x00FF), (.r1, 0x0000)], 0x81, [], [(.r0, 0x0000)], [], 0xA1, 0x0102⟩,
      ⟨[0xB8, 0x00], [(.r0, 0x0000)], 0x85, [], [(.r0, 0x00FF)], [], 0xA9, 0x0102⟩,
      ⟨[0x1E, 0x98], [(.r0, 0x0010), (.r1, 0x000F)], 0x85, [], [(.r0, 0x0000)], [], 0xA4, 0x0102⟩,
      ⟨[0x18, 0x98], [(.r0, 0x0010), (.r1, 0x0001)], 0x80, [], [(.r0, 0x000F)], [], 0xA0, 0x0102⟩,
      ⟨[0x19, 0x10], [(.r0, 0x1000), (.r1, 0x0001)], 0x80, [], [(.r0, 0x0FFF)], [], 0xA0, 0x0102⟩,
      ⟨[0x0A, 0x08], [(.r0, 0x007F)], 0x80, [], [(.r0, 0x0080)], [], 0x8A, 0x0102⟩,
      ⟨[0x0A, 0x00], [(.r0, 0x00FF)], 0xA1, [], [(.r0, 0x01FF)], [], 0xA1, 0x0102⟩,
      ⟨[0x1A, 0x0A], [(.r2, 0x0001)], 0x80, [], [(.r2, 0x0000)], [], 0x84, 0x0102⟩,
      ⟨[0x0B, 0x01], [(.r1, 0xFFFF)], 0x80, [], [(.r1, 0x0000)], [], 0x80, 0x0102⟩,
      ⟨[0x1B, 0x01], [(.r1, 0x0000)], 0x80, [], [(.r1, 0xFFFF)], [], 0x80, 0x0102⟩,
      ⟨[0xA8, 0x10], [(.r0, 0x000F)], 0x80, [], [], [], 0x89, 0x0102⟩,
      ⟨[0x1C, 0x98], [(.r0, 0x0080), (.r1, 0x007F)], 0x80, [], [], [], 0xA2, 0x0102⟩,
      ⟨[0x1D, 0x10], [(.r0, 0x8000), (.r1, 0x0001)], 0x80, [], [], [], 0xA2, 0x0102⟩,
      ⟨[0x50, 0x90], [(.r0, 0x12FF), (.r1, 0x00FF)], 0x8F, [], [(.r0, 0xFE01)], [], 0x8F, 0x0102⟩,
      ⟨[0x50, 0x80], [(.r0, 0xAA0C)], 0x80, [], [(.r0, 0x0090)], [], 0x80, 0x0102⟩,
      ⟨[0x51, 0x90], [(.r0, 0x0064), (.r1, 0x0007)], 0x80, [], [(.r0, 0x020E)], [], 0x80, 0x0102⟩,
      ⟨[0x17, 0x88], [(.r0, 0x0001)], 0x80, [], [(.r0, 0x00FF)], [], 0xA9, 0x0102⟩] : List Case).all Case.holds = true := by
  decide +kernel

/-- V91, V92, V93, V94, V95, V96, V97. -/
theorem test_vectors_logic : ([
      ⟨[0xE8, 0x0F], [(.r0, 0x00A5)], 0x8B, [], [(.r0, 0x0005)], [], 0x81, 0x0102⟩,
      ⟨[0x16, 0x98], [(.r0, 0x00F0), (.r1, 0x000F)], 0x80, [], [(.r0, 0x0000)], [], 0x84, 0x0102⟩,
      ⟨[0xC8, 0x80], [(.r0, 0x0001)], 0x80, [], [(.r0, 0x0081)], [], 0x88, 0x0102⟩,
      ⟨[0x14, 0x10], [(.r0, 0x0000), (.r1, 0x0000)], 0x82, [], [], [], 0x84, 0x0102⟩,
      ⟨[0xD8, 0xFF], [(.r0, 0x00FF)], 0x80, [], [(.r0, 0x0000)], [], 0x84, 0x0102⟩,
      ⟨[0x15, 0x88], [(.r0, 0x1234)], 0x8B, [], [(.r0, 0x1200)], [], 0x85, 0x0102⟩,
      ⟨[0x17, 0x08], [(.r0, 0x0055)], 0x80, [], [(.r0, 0x00AA)], [], 0x88, 0x0102⟩] : List Case).all Case.holds = true := by
  decide +kernel

/-- V99, V102, V104, V106, V107, V109, V110, V112. -/
theorem test_vectors_shift : ([
      ⟨[0x10, 0x88], [(.r0, 0x0041)], 0x80, [], [(.r0, 0x0082)], [], 0x8A, 0x0102⟩,
      ⟨[0x11, 0x88], [(.r0, 0x0081)], 0x80, [], [(.r0, 0x00C0)], [], 0x89, 0x0102⟩,
      ⟨[0x10, 0x08], [(.r0, 0x0041)], 0x82, [], [(.r0, 0x0082)], [], 0x88, 0x0102⟩,
      ⟨[0x11, 0x08], [(.r0, 0x0081)], 0x88, [], [(.r0, 0x0040)], [], 0x81, 0x0102⟩,
      ⟨[0x12, 0x88], [(.r0, 0x0081)], 0x80, [], [(.r0, 0x0003)], [], 0x81, 0x0102⟩,
      ⟨[0x13, 0x88], [(.r0, 0x0081)], 0x80, [], [(.r0, 0x00C0)], [], 0x89, 0x0102⟩,
      ⟨[0x12, 0x08], [(.r0, 0x0081)], 0x80, [], [(.r0, 0x0002)], [], 0x81, 0x0102⟩,
      ⟨[0x13, 0x08], [(.r0, 0x0081)], 0x81, [], [(.r0, 0x00C0)], [], 0x89, 0x0102⟩] : List Case).all Case.holds = true := by
  decide +kernel

/-- V114, V115, V116, V117, V118, V119, V120, V121, V122, V123, V124, V125, V126, V127, V128, V129, V131, V132, V133,
V134, V136, V137, V138, V139, V140, V141, V142, V143, V144. -/
theorem test_vectors_bit : ([
      ⟨[0x70, 0x38], [(.r0, 0x0000)], 0x80, [], [(.r0, 0x0008)], [], 0x80, 0x0102⟩,
      ⟨[0x60, 0x98], [(.r0, 0x0000), (.r1, 0x00FD)], 0x80, [], [(.r0, 0x0020)], [], 0x80, 0x0102⟩,
      ⟨[0x60, 0x88], [(.r0, 0x0003)], 0x80, [], [(.r0, 0x000B)], [], 0x80, 0x0102⟩,
      ⟨[0x7F, 0xC0, 0x70, 0x00], [], 0x80, [(0xFFC0, 0x40)], [], [(0xFFC0, 0x41)], 0x80, 0x0104⟩,
      ⟨[0x7D, 0x10, 0x70, 0x70], [(.r1, 0xFB80)], 0x80, [(0xFB80, 0x80)], [], [(0xFB80, 0x80)], 0x80, 0x0104⟩,
      ⟨[0x7D, 0x10, 0x60, 0xA0], [(.r1, 0xFB80), (.r2, 0x000A)], 0x80, [(0xFB80, 0x00)],
        [], [(0xFB80, 0x04)], 0x80, 0x0104⟩,
      ⟨[0x72, 0x78], [(.r0, 0x00FF)], 0x80, [], [(.r0, 0x007F)], [], 0x80, 0x0102⟩,
      ⟨[0x7F, 0xC0, 0x72, 0x00], [], 0x80, [(0xFFC0, 0xFF)], [], [(0xFFC0, 0xFE)], 0x80, 0x0104⟩,
      ⟨[0x7F, 0xC0, 0x62, 0x20], [(.r2, 0x0400)], 0x80, [(0xFFC0, 0xFF)], [], [(0xFFC0, 0xEF)], 0x80, 0x0104⟩,
      ⟨[0x71, 0x70], [(.r0, 0x8000)], 0x80, [], [(.r0, 0x0000)], [], 0x80, 0x0102⟩,
      ⟨[0x7D, 0x00, 0x61, 0x90], [(.r0, 0xFB80), (.r1, 0x0000)], 0x80, [(0xFB80, 0x00)],
        [], [(0xFB80, 0x01)], 0x80, 0x0104⟩,
      ⟨[0x7E, 0xC0, 0x73, 0x70], [], 0x84, [(0xFFC0, 0x80)], [], [], 0x80, 0x0104⟩,
      ⟨[0x73, 0x08], [(.r0, 0x00FE)], 0x80, [], [], [], 0x84, 0x0102⟩,
      ⟨[0x63, 0x98], [(.r0, 0x0010), (.r1, 0x0004)], 0x84, [], [], [], 0x80, 0x0102⟩,
      ⟨[0x7C, 0x10, 0x73, 0x30], [(.r1, 0xFB80)], 0x84, [(0xFB80, 0x08)], [], [], 0x80, 0x0104⟩,
      ⟨[0x76, 0x28], [(.r0, 0x0004)], 0x81, [], [], [], 0x81, 0x0102⟩,
      ⟨[0x76, 0xA8], [(.r0, 0x0000)], 0x81, [], [], [], 0x81, 0x0102⟩,
      ⟨[0x7C, 0x10, 0x76, 0xA0], [(.r1, 0xFB80)], 0x81, [(0xFB80, 0x04)], [], [], 0x80, 0x0104⟩,
      ⟨[0x7C, 0x30, 0x74, 0x20], [(.r3, 0xFB80)], 0x80, [(0xFB80, 0x04)], [], [], 0x81, 0x0104⟩,
      ⟨[0x74, 0xA8], [(.r0, 0x0004)], 0x80, [], [], [], 0x80, 0x0102⟩,
      ⟨[0x75, 0x08], [(.r0, 0x0001)], 0x81, [], [], [], 0x80, 0x0102⟩,
      ⟨[0x7E, 0xC0, 0x75, 0x80], [], 0x81, [(0xFFC0, 0x01)], [], [], 0x81, 0x0104⟩,
      ⟨[0x77, 0x78], [(.r0, 0x0080)], 0x80, [], [], [], 0x81, 0x0102⟩,
      ⟨[0x77, 0xF8], [(.r0, 0x0080)], 0x81, [], [], [], 0x80, 0x0102⟩,
      ⟨[0x7C, 0x10, 0x77, 0xE0], [(.r1, 0xFB80)], 0x80, [(0xFB80, 0x80)], [], [], 0x81, 0x0104⟩,
      ⟨[0x67, 0x48], [(.r0, 0x0000)], 0x81, [], [(.r0, 0x0010)], [], 0x81, 0x0102⟩,
      ⟨[0x7D, 0x20, 0x67, 0x40], [(.r2, 0xFB80)], 0x80, [(0xFB80, 0xFF)], [], [(0xFB80, 0xEF)], 0x80, 0x0104⟩,
      ⟨[0x7D, 0x20, 0x67, 0xC0], [(.r2, 0xFB80)], 0x80, [(0xFB80, 0x00)], [], [(0xFB80, 0x10)], 0x80, 0x0104⟩,
      ⟨[0x7F, 0xC0, 0x67, 0x80], [], 0x81, [(0xFFC0, 0x01)], [], [(0xFFC0, 0x00)], 0x81, 0x0104⟩] : List Case).all Case.holds = true := by
  decide +kernel

/-- V148, V150, V153, V155, V156, V157, V158, V160, V161, V162, V163, V164, V165, V167, V168, V170, V172, V173, V174,
V175, V176, V178, V179, V180, V181, V182, V183. -/
theorem test_vectors_branch : ([
      ⟨[0x40, 0x10], [], 0x80, [], [], [], 0x80, 0x0112⟩,
      ⟨[0x41, 0x10], [], 0x8F, [], [], [], 0x8F, 0x0102⟩,
      ⟨[0x42, 0x10], [], 0x80, [], [], [], 0x80, 0x0112⟩,
      ⟨[0x43, 0x10], [], 0x81, [], [], [], 0x81, 0x0112⟩,
      ⟨[0x44, 0x10], [], 0x81, [], [], [], 0x81, 0x0102⟩,
      ⟨[0x45, 0x10], [], 0x81, [], [], [], 0x81, 0x0112⟩,
      ⟨[0x46, 0x06], [], 0x84, [], [], [], 0x84, 0x0102⟩,
      ⟨[0x47, 0x10], [], 0x84, [], [], [], 0x84, 0x0112⟩,
      ⟨[0x48, 0x10], [], 0x82, [], [], [], 0x82, 0x0102⟩,
      ⟨[0x49, 0x10], [], 0x82, [], [], [], 0x82, 0x0112⟩,
      ⟨[0x4A, 0x10], [], 0x88, [], [], [], 0x88, 0x0102⟩,
      ⟨[0x4B, 0x10], [], 0x88, [], [], [], 0x88, 0x0112⟩,
      ⟨[0x4C, 0x10], [], 0x8A, [], [], [], 0x8A, 0x0112⟩,
      ⟨[0x4D, 0x10], [], 0x82, [], [], [], 0x82, 0x0112⟩,
      ⟨[0x4E, 0x10], [], 0x84, [], [], [], 0x84, 0x0102⟩,
      ⟨[0x4F, 0x10], [], 0x8A, [], [], [], 0x8A, 0x0102⟩,
      ⟨[0x59, 0x20], [(.r2, 0x0201)], 0x80, [], [], [], 0x80, 0x0200⟩,
      ⟨[0x5A, 0x00, 0x02, 0x00], [], 0x80, [], [], [], 0x80, 0x0200⟩,
      ⟨[0x5B, 0x40], [], 0x80, [(0x0040, 0x02), (0x0041, 0x00)], [], [], 0x80, 0x0200⟩,
      ⟨[0x5B, 0x41], [], 0x80, [(0x0040, 0x03), (0x0041, 0x01)], [], [], 0x80, 0x0300⟩,
      ⟨[0x55, 0x10], [(.r7, 0xFF80)], 0x80, [], [(.r7, 0xFF7E)], [(0xFF7E, 0x01), (0xFF7F, 0x02)], 0x80, 0x0112⟩,
      ⟨[0x5D, 0x20], [(.r2, 0x0200), (.r7, 0xFF80)], 0x80, [],
        [(.r7, 0xFF7E)], [(0xFF7E, 0x01), (0xFF7F, 0x02)], 0x80, 0x0200⟩,
      ⟨[0x5E, 0x00, 0x02, 0x00], [(.r7, 0xFF80)], 0x80, [],
        [(.r7, 0xFF7E)], [(0xFF7E, 0x01), (0xFF7F, 0x04)], 0x80, 0x0200⟩,
      ⟨[0x5F, 0x40], [(.r7, 0xFF80)], 0x80, [(0x0040, 0x02), (0x0041, 0x00)],
        [(.r7, 0xFF7E)], [(0xFF7E, 0x01), (0xFF7F, 0x02)], 0x80, 0x0200⟩,
      ⟨[0x5D, 0x70], [(.r7, 0xFF80)], 0x80, [], [(.r7, 0xFF7E)], [(0xFF7E, 0x01), (0xFF7F, 0x02)], 0x80, 0xFF80⟩,
      ⟨[0x54, 0x70], [(.r7, 0xFF7E)], 0x80, [(0xFF7E, 0x01), (0xFF7F, 0x04)], [(.r7, 0xFF80)], [], 0x80, 0x0104⟩,
      ⟨[0x54, 0x70], [(.r7, 0xFF7E)], 0x80, [(0xFF7E, 0x01), (0xFF7F, 0x05)], [(.r7, 0xFF80)], [], 0x80, 0x0104⟩] : List Case).all Case.holds = true := by
  decide +kernel

/-- V184, V186, V187, V188, V190, V192, V193, V194, V195, V196, V197, V199. -/
theorem test_vectors_system_and_block : ([
      ⟨[0x07, 0x00], [], 0xFF, [], [], [], 0x00, 0x0102⟩,
      ⟨[0x03, 0x08], [(.r0, 0x0085)], 0x00, [], [], [], 0x85, 0x0102⟩,
      ⟨[0x02, 0x00], [(.r0, 0x0000)], 0xD5, [], [(.r0, 0xD500)], [], 0xD5, 0x0102⟩,
      ⟨[0x06, 0x7F], [], 0x85, [], [], [], 0x05, 0x0102⟩,
      ⟨[0x04, 0x80], [], 0x04, [], [], [], 0x84, 0x0102⟩,
      ⟨[0x05, 0x01], [], 0x81, [], [], [], 0x80, 0x0102⟩,
      ⟨[0x00, 0x00], [], 0xAF, [], [], [], 0xAF, 0x0102⟩,
      ⟨[0x01, 0x80], [], 0x00, [], [], [], 0x00, 0x0102⟩,
      ⟨[0x56, 0x70], [(.r7, 0xFF7C)], 0x80, [(0xFF7C, 0x04), (0xFF7D, 0xEE), (0xFF7E, 0x01), (0xFF7F, 0x24)],
        [(.r7, 0xFF80)], [], 0x04, 0x0124⟩,
      ⟨[0x56, 0x70], [(.r7, 0xFF7C)], 0x80, [(0xFF7C, 0xFF), (0xFF7D, 0x00), (0xFF7E, 0x01), (0xFF7F, 0x25)],
        [(.r7, 0xFF80)], [], 0xFF, 0x0124⟩,
      ⟨[0x7B, 0x5C, 0x59, 0x8F], [(.r4, 0xAA03), (.r5, 0xFB80), (.r6, 0xFB90)], 0x8F, [(0xFB80, 0x11), (0xFB81, 0x22), (0xFB82, 0x33)],
        [(.r4, 0xAA00), (.r5, 0xFB83), (.r6, 0xFB93)], [(0xFB90, 0x11), (0xFB91, 0x22), (0xFB92, 0x33)], 0x8F, 0x0104⟩,
      ⟨[0x7B, 0x5C, 0x59, 0x8F], [(.r4, 0x0003), (.r5, 0xFB80), (.r6, 0xFB81)], 0x80, [(0xFB80, 0x11), (0xFB81, 0x22), (0xFB82, 0x33)],
        [(.r4, 0x0000), (.r5, 0xFB83), (.r6, 0xFB84)], [(0xFB81, 0x11), (0xFB82, 0x11), (0xFB83, 0x11)], 0x80, 0x0104⟩] : List Case).all Case.holds = true := by
  decide +kernel

/-! ### Tests outside the plain rows -/

/-- The state at `pc` with some registers, RAM everywhere, at a boundary that may accept an interrupt. -/
def ramAt (pc : Word) (regs : List (Reg16 × Word)) : State :=
  withRegs { State.reset with pc := pc, holdOff := false } regs

/-- A chip with ROM, RAM, a hole and device registers (some byte-only), and three interrupt sources. -/
def mapChip : Chip where
  memMap :=
    [{ base := 0x0040, size := 2, kind := .device, byteOnly := true },
      { base := 0x0000, size := 0x8000, kind := .rom, byteOnly := false },
      { base := 0x9000, size := 0x0100, kind := .unmapped, byteOnly := false },
      { base := 0xFFC0, size := 0x0010, kind := .device, byteOnly := true },
      { base := 0xFFD0, size := 0x0010, kind := .device, byteOnly := false }]
  resetVector := 0x0000#16
  sources :=
    [{ id := 1, vector := 0x0002#16, nonmaskable := true, wakes := true },
      { id := 2, vector := 0x0008#16, nonmaskable := false, wakes := true },
      { id := 3, vector := 0x00FE#16, nonmaskable := false, wakes := false }]

/-- The state at `pc` with some registers on that chip. -/
def mapAt (pc : Word) (regs : List (Reg16 × Word)) : State := { ramAt pc regs with chip := mapChip }

/-- What a step gives, if it goes on. -/
def nextOf (o : Host.Outcome State Fault Refusal) : Option State :=
  match o with
  | .next t => some t
  | _ => none

/-- Why an outcome is a refusal. -/
def refusalOf (o : Host.Outcome State Fault Refusal) : Option Refusal :=
  match o with
  | .refused r => some r
  | _ => none

/-- V33 to V37: the forms with no effect in the manual. -/
theorem test_refused_auto_modify :
    refusalOf (exec (.pop .r7) (ramAt 0x0100#16 [])) = some .postIncrementOwnRegister ∧
      refusalOf (exec (.movBPostInc .r0 (.lo .r0)) (ramAt 0x0100#16 [])) = some .postIncrementOwnRegister ∧
      refusalOf (exec (.movBPreDec (.lo .r0) .r7) (ramAt 0x0100#16 [])) = some .byteAutoModifySP ∧
      refusalOf (exec (.movBPostInc .r7 (.lo .r0)) (ramAt 0x0100#16 [])) = some .byteAutoModifySP := by
  decide +kernel

/-- V72 to V74, V77 to V79: the results of DAA and DAS, and C. -/
theorem test_decimal_adjust :
    daaRow false true 4 1 = some (0x06#8, false) ∧ daaRow false false 9 10 = some (0x66#8, true) ∧
      daaRow true true 3 2 = some (0x66#8, true) ∧ dasRow false true 1 15 = some 0xFA#8 ∧
      dasRow true false 13 9 = some 0xA0#8 ∧ dasRow true true 8 15 = some 0x9A#8 ∧
      (nextOf (exec (.daa (.lo .r0)) { ramAt 0x0100#16 [(.r0, 0x0041)] with ccr := 0xA0#8 })).map (fun t => t.reg .r0) =
        some 0x0047#16 ∧
      (nextOf (exec (.das (.lo .r0)) { ramAt 0x0100#16 [(.r0, 0x001F)] with ccr := 0xA0#8 })).map (fun t => t.reg .r0) =
        some 0x0019#16 := by
  decide +kernel

/-- V76, V80: no row. -/
theorem test_decimal_adjust_off_table : daaRow false true 4 15 = none ∧ dasRow false true 1 2 = none := by decide

/-- V86, V87: N and Z of the divisor. -/
theorem test_divxu_corners :
    (nextOf (exec (.divxu (.lo .r1) .r0) { ramAt 0x0100#16 [(.r0, 0x0064)] with ccr := 0x80#8 })).map
        (fun t => (t.ccr, t.pc)) = some (0x84#8, 0x0102#16) ∧
      (nextOf (exec (.divxu (.lo .r1) .r0) { ramAt 0x0100#16 [(.r0, 0x0700), (.r1, 0x0007)] with ccr := 0x80#8 })).map
        (fun t => (t.ccr, t.pc)) = some (0x80#8, 0x0102#16) := by
  decide +kernel

/-- V1: BCLR on a write-only port register reads H'FF and writes H'FE. V2: BSET on a port reads H'40, writes H'41. -/
theorem test_bit_write_on_device :
    (nextOf (exec (.bclrImmAbs 0 0xC0) { mapAt 0x0100#16 [] with deviceIn := [0xFF#8] })).map (fun t => t.envLog) =
        some [.deviceWrite 0xFFC0#16 0xFE#8, .deviceRead 0xFFC0#16 0xFF#8] ∧
      (nextOf (exec (.bsetImmAbs 0 0xC1) { mapAt 0x0100#16 [] with deviceIn := [0x40#8] })).map (fun t => t.envLog) =
        some [.deviceWrite 0xFFC1#16 0x41#8, .deviceRead 0xFFC1#16 0x40#8] := by
  decide +kernel

/-- The state of V241: an interrupt of the source with vector H'0008 is requested. -/
def interruptState (ccr : Byte) (accept : Bool) (requests : List Nat) : State :=
  withBytes
    { ramAt 0x0124#16 [(.r0, 0x1234), (.r7, 0xFF80)] with
      ccr := ccr
      chip := { Chip.default with sources := mapChip.sources }
      inputs := [{ reset := .inactive, requests := requests, accept := accept }, Boundary.quiet] }
    [(0x0008, 0x03), (0x0009, 0x00), (0x0002, 0x05), (0x0003, 0x00), (0x0124, 0x06), (0x0125, 0x7F)]

/-- V241. -/
theorem test_interrupt_entry :
    (nextOf (step (interruptState 0x04#8 true [2, 3]))).map (fun t => (t.pc, t.reg .r7, t.reg .r0, t.ccr)) =
        some (0x0300#16, 0xFF7C#16, 0x1234#16, 0x84#8) ∧
      (nextOf (step (interruptState 0x04#8 true [2, 3]))).map
        (fun t => (t.peek 0xFF7E#16, t.peek 0xFF7F#16, t.envLog)) =
        some (0x01#8, 0x24#8, [.accepted 2]) := by
  decide +kernel

/-- V242: RTE gives PC and the registers back. -/
theorem test_interrupt_then_rte :
    ((nextOf (step (interruptState 0x04#8 true [2]))).bind (fun t => nextOf (exec .rte t))).map
      (fun u => (u.pc, u.regs)) =
      some (0x0124#16, (interruptState 0x04#8 true [2]).regs) := by
  decide +kernel

/-- V243: a masked request waits while ANDC executes; V244: a nonmaskable one does not. -/
theorem test_masked_and_nonmaskable :
    (nextOf (step (interruptState 0x80#8 true [2]))).map (fun t => (t.pc, t.ccr)) = some (0x0126#16, 0x00#8) ∧
      (nextOf (step (interruptState 0x80#8 true [1, 2]))).map (fun t => (t.pc, t.ccr)) = some (0x0500#16, 0x80#8) := by
  decide +kernel

/-- V246: the power-down state waits, and a wake source ends it. -/
theorem test_power_down :
    (nextOf (step { interruptState 0x00#8 false [3] with mode := .powerDown })).map (fun t => (t.pc, t.mode)) =
        some (0x0124#16, .powerDown) ∧
      (nextOf (step { interruptState 0x00#8 false [2] with mode := .powerDown })).map (fun t => (t.pc, t.mode, t.ccr)) =
        some (0x0300#16, .programExecution, 0x80#8) := by
  decide +kernel

/-- A state to which a reset is requested, with the vector word given. -/
def resetState (vectorLow : Byte) (input : ResetInput) (mode : Mode) : State :=
  withBytes
    { ramAt 0x1234#16 [] with
      mode := mode, ccr := 0x2A#8, inputs := [{ reset := input, requests := [], accept := false }] }
    [(0x0000, 0x01), (0x0001, vectorLow), (0xFB80, 0x77)]

/-- V247, V248: the reset entry, also with an odd vector. -/
theorem test_reset_entry :
    (nextOf (step (resetState 0x00#8 .request .powerDown))).map (fun t => (t.pc, t.mode, t.peek 0xFB80#16)) =
        some (0x0100#16, .programExecution, 0x77#8) ∧
      (nextOf (step (resetState 0x01#8 .request .programExecution))).map (fun t => (t.pc, t.holdOff)) =
        some (0x0100#16, true) := by
  decide +kernel

/-- The instruction placed where the step fetches runs as the first one after reset. -/
theorem test_first_instruction_after_reset :
    (nextOf (step (State.reset.withFetchWord 16 0xF8A5))).map (fun t => (t.reg .r0, t.pc)) =
        some (0x00A5#16, 0x0002#16) ∧
      (nextOf (step (State.reset.withFetchWord 32 0x7901FB80))).map (fun t => (t.reg .r1, t.pc)) =
        some (0xFB80#16, 0x0004#16) := by
  decide +kernel

/-! ### Witnesses: states that meet the hypotheses of the statements -/

theorem witness_DecodeOfEncode :
    Instr.wellFormed (.push .r7) = true ∧ Instr.wellFormed (.movWPostInc .r6 .r6) = true := by decide

theorem witness_EncodeOfDecode :
    decode [0x6D#8, 0x73#8, 0xFF#8] = .ok (.pop .r3, [0xFF#8]) ∧
      decode [0x7E#8, 0xC0#8, 0x77#8, 0xF0#8] = .ok (.bildAbs 7 0xC0, []) := by decide +kernel

/-- Code at H'0100: `w0`, and `w1` after it. -/
def codeAt (w0 w1 : Word) : State :=
  withBytes (ramAt 0x0100#16 []) (placed 0x0100#16 [hi8 w0, lo8 w0, hi8 w1, lo8 w1])

theorem witness_StepRunsDecodedInstruction :
    let s := codeAt 0x0C92#16 0x0000#16
    s.mode = .programExecution ∧ s.boundary.reset = .inactive ∧ s.acceptedSource = none ∧
      State.fetch { s with inputs := s.inputs.tail, holdOff := false } = .ok ([0x0C#8, 0x92#8], s) ∧
      decode [0x0C#8, 0x92#8] = .ok (.movBReg (.lo .r1) (.hi .r2), []) :=
  ⟨rfl, rfl, rfl, rfl, by decide +kernel⟩

theorem witness_StepRunsInstructionInMemory :
    let s := codeAt 0x5A00#16 0x0200#16
    s.mode = .programExecution ∧ s.boundary.reset = .inactive ∧ s.acceptedSource = none ∧ s.WordStorage s.pc ∧
      isLong (s.peek (s.pc &&& 0xFFFE#16)) = true ∧ s.WordStorage (s.pc + 2#16) ∧
      decode [0x5A#8, 0x00#8, 0x02#8, 0x00#8] = .ok (.jmpAbs 0x0200, []) :=
  ⟨rfl, rfl, rfl, ⟨rfl, .inl rfl, .inl rfl⟩, by decide +kernel, ⟨rfl, .inl rfl, .inl rfl⟩, by decide +kernel⟩

theorem witness_StepRefusesUndefinedCode :
    let s := codeAt 0x5200#16 0x0000#16
    s.mode = .programExecution ∧ s.boundary.reset = .inactive ∧ s.acceptedSource = none ∧
      State.fetch { s with inputs := s.inputs.tail, holdOff := false } = .ok ([0x52#8, 0x00#8], s) ∧
      decode [0x52#8, 0x00#8] = .error (.undefinedFirstByte 0x52#8) :=
  ⟨rfl, rfl, rfl, rfl, by decide +kernel⟩

theorem witness_RegisterBytesAndPairs :
    Reg8.lo .r1 ≠ .hi .r1 ∧ Reg8.hi .r2 ≠ .hi .r1 ∧ Reg8.hi .r2 ≠ .lo .r1 := by decide

/-- Every kind of address, at the edges of its region. -/
theorem witness_ByteReads_and_ByteWrites :
    mapChip.kindAt 0x003F#16 = .rom ∧ mapChip.kindAt 0x0040#16 = .device ∧ mapChip.kindAt 0x0042#16 = .rom ∧
      mapChip.kindAt 0x7FFF#16 = .rom ∧ mapChip.kindAt 0x8000#16 = .ram ∧ mapChip.kindAt 0x9000#16 = .unmapped ∧
      mapChip.kindAt 0x90FF#16 = .unmapped ∧ mapChip.kindAt 0xFFDF#16 = .device ∧ mapChip.kindAt 0xFFFF#16 = .ram ∧
      Memory.wf (ramAt 0x0100#16 []).mem = true ∧
      (mapAt 0x0100#16 []).deviceIn = [] ∧
      { mapAt 0x0100#16 [] with deviceIn := [0x55#8] }.deviceIn = [0x55#8] := by
  decide +kernel

/-- Words just outside and just inside a byte-only region. -/
theorem witness_WordAccesses :
    mapChip.wordOk 0xFFBF#16 = true ∧ mapChip.wordOk 0xFFC0#16 = false ∧ mapChip.wordOk 0xFFCF#16 = false ∧
      mapChip.wordOk 0xFFD0#16 = true ∧ mapChip.wordOk 0x0040#16 = false ∧ mapChip.wordOk 0x0042#16 = true := by
  decide +kernel

theorem witness_WordAccessToByteOnlyRefused :
    let s := mapAt 0x0100#16 [(.r1, 0xFFC0), (.r2, 0xFFD1), (.r7, 0xFFCF)]
    s.chip.wordOk (s.reg .r1) = false ∧ s.WordClearOfPrefetch 2#16 (s.reg .r1) ∧
      s.chip.wordOk (s.reg .r1 + 0x000F#16) = false ∧ s.WordClearOfPrefetch 4#16 (s.reg .r1 + 0x000F#16) ∧
      s.chip.wordOk 0xFFCE#16 = false ∧ s.WordClearOfPrefetch 4#16 0xFFCE#16 ∧
      s.chip.wordOk (s.reg .r2 - 2#16) = false ∧ s.WordClearOfPrefetch 2#16 (s.reg .r2 - 2#16) ∧
      s.chip.wordOk (s.reg .r7) = false ∧ s.chip.wordOk (s.reg .r7 - 2#16) = false ∧
      s.WordClearOfPrefetch 2#16 (s.reg .r7 - 2#16) ∧ s.WordClearOfPrefetch 4#16 (s.reg .r7 - 2#16) ∧
      s.chip.wordOk ((0x40#8).setWidth 16) = false ∧ s.chip.wordOk ((0x41#8).setWidth 16) = false := by
  simp only [State.WordClearOfPrefetch, State.ClearOfPrefetch]
  decide +kernel

/-- For the clauses about a second word: SP at the last word access allowed below a byte-only region, and a pointer and
code that take word accesses where stack or second code word does not. -/
theorem witness_WordAccessToByteOnlyRefused_second_word :
    let s := mapAt 0x0100#16 [(.r7, 0xFFBE)]
    let u := mapAt 0x0100#16 [(.r7, 0xFFC2)]
    let f := { mapAt 0x003E#16 [] with mem := [(0x003E, 0x79#8)] }
    (s.chip.wordOk (s.reg .r7) = true ∧ s.chip.wordOk (s.reg .r7 + 2#16) = false) ∧
      (u.chip.wordOk ((0x42#8).setWidth 16) = true ∧ u.chip.wordOk (u.reg .r7 - 2#16) = false ∧
        u.WordClearOfPrefetch 2#16 (u.reg .r7 - 2#16)) ∧
      (f.mode = .programExecution ∧ f.boundary.reset = .inactive ∧ f.acceptedSource = none ∧
        f.chip.wordOk f.pc = true ∧ isLong (f.loadByte (f.pc &&& 0xFFFE#16)).1 = true ∧
        f.chip.wordOk (f.pc + 2#16) = false) ∧
      (mapAt 0x0040#16 []).chip.wordOk (mapAt 0x0040#16 []).pc = false := by
  simp only [State.WordClearOfPrefetch, State.ClearOfPrefetch]
  decide +kernel

theorem witness_MovWordLoads :
    let s := mapAt 0x0100#16 [(.r1, 0xFFD0)]
    s.chip.wordOk (s.reg .r1) = true ∧ s.chip.wordOk (s.reg .r1 + 0xFFEF#16) = true ∧ s.chip.wordOk 0xFFFF#16 = true := by
  decide +kernel

theorem witness_PostIncrementLoads :
    let s := ramAt 0x0100#16 [(.r1, 0xFFFF), (.r7, 0xFF7E)]
    (Reg16.r1 ≠ .r7 ∧ Reg8.hi .r2 ≠ .hi .r1 ∧ Reg8.hi .r2 ≠ .lo .r1) ∧
      (s.chip.wordOk (s.reg .r1) = true ∧ Reg16.r2 ≠ .r1) ∧ (s.chip.wordOk (s.reg .r7) = true ∧ Reg16.r2 ≠ .r7) := by
  decide +kernel

/-- Addresses at both edges of the prefetched instruction (next = H'0102 and H'0104), and inside it where a write has no
effect. -/
theorem witness_MovByteStores :
    let s := ramAt 0x0100#16 [(.r1, 0x0101)]
    let m := mapAt 0x0100#16 [(.r1, 0x0102)]
    s.ClearOfPrefetch 2#16 (s.reg .r1) ∧ s.ClearOfPrefetch 4#16 (s.reg .r1 + 0x0007#16) ∧
      s.ClearOfPrefetch 2#16 (0xFF00#16 ||| (0xC0#8).setWidth 16) ∧ s.ClearOfPrefetch 4#16 0x0103#16 ∧
      m.ClearOfPrefetch 2#16 (m.reg .r1) := by
  simp only [State.ClearOfPrefetch]
  decide +kernel

theorem witness_MovWordStores :
    let s := ramAt 0x0100#16 [(.r1, 0x0107)]
    s.chip.wordOk (s.reg .r1) = true ∧ s.WordClearOfPrefetch 2#16 (s.reg .r1) ∧
      s.chip.wordOk (s.reg .r1 + 1#16) = true ∧ s.WordClearOfPrefetch 4#16 (s.reg .r1 + 1#16) ∧
      s.chip.wordOk 0x0103#16 = true ∧ s.WordClearOfPrefetch 4#16 0x0103#16 := by
  simp only [State.WordClearOfPrefetch, State.ClearOfPrefetch]
  decide +kernel

theorem witness_PreDecrementStores :
    let s := ramAt 0x0100#16 [(.r1, 0x0102), (.r2, 0x0000), (.r7, 0x0108)]
    (Reg16.r1 ≠ .r7 ∧ s.ClearOfPrefetch 2#16 (s.reg .r1 - 1#16)) ∧
      (s.chip.wordOk (s.reg .r2 - 2#16) = true ∧ s.WordClearOfPrefetch 2#16 (s.reg .r2 - 2#16)) ∧ s.CanPush 2#16 := by
  simp only [State.CanPush, State.WordClearOfPrefetch, State.ClearOfPrefetch]
  decide +kernel

theorem witness_ForbiddenAutoModifyRefused : Reg16.r6 ≠ Reg16.r7 := by decide

/-- Addresses at both ends of the prefetched instruction, each storing form. -/
theorem witness_StoreIntoPrefetchedRefused :
    let s := ramAt 0xFF40#16 [(.r1, 0xFF42), (.r2, 0xFF45), (.r3, 0xFF46), (.r7, 0xFF47)]
    let u := ramAt 0x0100#16 [(.r7, 0x0108)]
    ¬s.ClearOfPrefetch 2#16 (s.reg .r1) ∧ ¬s.ClearOfPrefetch 4#16 (s.reg .r1 + 2#16) ∧
      ¬s.ClearOfPrefetch 2#16 (0xFF00#16 ||| (0x45#8).setWidth 16) ∧ ¬s.ClearOfPrefetch 4#16 0xFF47#16 ∧
      (Reg16.r3 ≠ .r7 ∧ ¬s.ClearOfPrefetch 2#16 (s.reg .r3 - 1#16)) ∧ ¬s.WordClearOfPrefetch 2#16 (s.reg .r2) ∧
      ¬s.WordClearOfPrefetch 4#16 (s.reg .r2 + 1#16) ∧ ¬s.WordClearOfPrefetch 4#16 0xFF44#16 ∧
      ¬s.WordClearOfPrefetch 2#16 (s.reg .r3 - 2#16) ∧
      (¬s.WordClearOfPrefetch 2#16 (s.reg .r7 - 2#16) ∧ s.chip.wordOk ((0xFF#8).setWidth 16) = true) ∧
      ¬u.WordClearOfPrefetch 4#16 (u.reg .r7 - 2#16) ∧ ¬s.ClearOfPrefetch 4#16 (s.reg .r2) ∧
      ¬s.ClearOfPrefetch 4#16 (0xFF00#16 ||| (0x44#8).setWidth 16) := by
  simp only [State.WordClearOfPrefetch, State.ClearOfPrefetch]
  constructorm* _ ∧ _ <;> decide +kernel

/-- A CCR with just the given C and H. -/
def ccrOf (c h : Bool) : Byte := (if h then 0x20#8 else 0x00#8) ||| (if c then 0x01#8 else 0x00#8)

/-- Every row of both tables is met, at the lower and at the upper end of its ranges. -/
theorem witness_DecimalAdjustInTable :
    ∀ row ∈ daaRows ++ dasRows,
      RowMatches (ccrOf row.1 row.2.2.1) (BitVec.ofNat 8 (16 * row.2.1.1 + row.2.2.2.1.1)) row ∧
        RowMatches (ccrOf row.1 row.2.2.1) (BitVec.ofNat 8 (16 * row.2.1.2 + row.2.2.2.1.2)) row := by
  simp only [RowMatches]
  decide +kernel

theorem witness_BcdAdditionIsDecimal :
    let s := ramAt 0x0100#16 [(.r0, 0x0099), (.r1, 0x0009)]
    (s.regB (.lo .r0)).toNat / 16 ≤ 9 ∧ (s.regB (.lo .r0)).toNat % 16 ≤ 9 ∧ (s.regB (.lo .r1)).toNat / 16 ≤ 9 ∧
      (s.regB (.lo .r1)).toNat % 16 ≤ 9 := by
  decide +kernel

/-- The largest quotient that fits, and divisor 1. -/
theorem witness_DivxuQuotientAndRemainder :
    let s := ramAt 0x0100#16 [(.r0, 0xFEFF), (.r1, 0x00FF), (.r2, 0x00FF), (.r3, 0x0001)]
    ((s.regB (.lo .r1)).toNat ≠ 0 ∧ (s.reg .r0).toNat / (s.regB (.lo .r1)).toNat ≤ 255) ∧
      ((s.regB (.lo .r3)).toNat ≠ 0 ∧ (s.reg .r2).toNat / (s.regB (.lo .r3)).toNat ≤ 255) := by
  decide +kernel

theorem witness_BitWritesInMemory :
    let s := ramAt 0x0100#16 [(.r1, 0x0108)]
    s.ClearOfPrefetch 4#16 (s.reg .r1) ∧ s.ClearOfPrefetch 4#16 (0xFF00#16 ||| (0x00#8).setWidth 16) := by
  simp only [State.ClearOfPrefetch]
  decide +kernel

/-- Two flag registers between them meet every condition and its opposite. -/
theorem witness_ConditionalBranches :
    (CCR.n 0x08#8 = true ∧ CCR.z 0x08#8 = false ∧ CCR.v 0x08#8 = false ∧ CCR.c 0x08#8 = false) ∧
      (CCR.n 0x07#8 = false ∧ CCR.z 0x07#8 = true ∧ CCR.v 0x07#8 = true ∧ CCR.c 0x07#8 = true) := by
  decide

theorem witness_Jumps_and_Calls :
    let s := mapAt 0x0100#16 [(.r7, 0x8002)]
    let m := mapAt 0x0100#16 [(.r7, 0x0106)]
    s.chip.wordOk ((0x3F#8).setWidth 16) = true ∧ s.chip.wordOk ((0xFF#8).setWidth 16) = true ∧ s.CanPush 2#16 ∧
      s.CanPush 4#16 ∧ m.CanPush 2#16 := by
  simp only [State.CanPush, State.WordClearOfPrefetch, State.ClearOfPrefetch]
  decide +kernel

theorem witness_ReturnFromSubroutine_and_ReturnFromException :
    let s := mapAt 0x0100#16 [(.r7, 0xFFFE)]
    s.chip.wordOk (s.reg .r7) = true ∧ s.chip.wordOk (s.reg .r7 + 2#16) = true := by
  decide +kernel

theorem witness_EepmovIsItsLoop :
    let s := ramAt 0x0100#16 [(.r4, 0xAA01), (.r6, 0x0108)]
    let u := ramAt 0x0100#16 [(.r4, 0xAA01), (.r6, 0x0107)]
    (ramAt 0x0100#16 [(.r4, 0xAA00)]).regB (.lo .r4) = 0#8 ∧
      (s.regB (.lo .r4) ≠ 0#8 ∧ s.ClearOfPrefetch 4#16 (s.reg .r6)) ∧
      (u.regB (.lo .r4) ≠ 0#8 ∧ ¬u.ClearOfPrefetch 4#16 (u.reg .r6)) := by
  simp only [State.ClearOfPrefetch]
  decide +kernel

/-- A block of 3 bytes copied upwards onto itself, one byte lower: every hypothesis holds. -/
theorem witness_EepmovCopiesBlock :
    let s := ramAt 0x0100#16 [(.r4, 0xAA03), (.r5, 0xFB81), (.r6, 0xFB80)]
    3 = (s.regB (.lo .r4)).toNat ∧ (∀ k, k < 3 → s.ClearOfPrefetch 4#16 (s.reg .r6 + BitVec.ofNat 16 k)) ∧
      (∀ k, k < 3 → s.Storage (s.reg .r5 + BitVec.ofNat 16 k) ∧
        s.chip.kindAt (s.reg .r6 + BitVec.ofNat 16 k) = .ram) ∧
      (∀ j, j < 3 → ∀ k, k < 3 → j < k → s.reg .r6 + BitVec.ofNat 16 j ≠ s.reg .r5 + BitVec.ofNat 16 k) := by
  simp only [State.ClearOfPrefetch, State.Storage]
  decide +kernel

/-- Source 2 is the highest of the requested sources 2 and 3. -/
theorem interruptState_highest (p : IntSource → Prop) (mode : Mode)
    (h : p { id := 2, vector := 0x0008#16, nonmaskable := false, wakes := true }) :
    { interruptState 0x04#8 true [2, 3] with mode := mode }.HighestRequest
      { reset := .inactive, requests := [2, 3], accept := true } p
      { id := 2, vector := 0x0008#16, nonmaskable := false, wakes := true } :=
  ⟨[{ id := 1, vector := 0x0002#16, nonmaskable := true, wakes := true }],
    [{ id := 3, vector := 0x00FE#16, nonmaskable := false, wakes := false }], rfl, ⟨by decide, .inr (show CCR.i 0x04#8 = false by decide), h⟩,
    fun x hx hc => by
      rw [List.mem_singleton] at hx
      subst hx
      exact absurd hc.1 (by decide)⟩

theorem witness_InterruptEntry :
    let s := interruptState 0x04#8 true [2, 3]
    let b : Boundary := { reset := .inactive, requests := [2, 3], accept := true }
    let src : IntSource := { id := 2, vector := 0x0008#16, nonmaskable := false, wakes := true }
    s.mode = .programExecution ∧ s.holdOff = false ∧ s.inputs = b :: [Boundary.quiet] ∧ b.reset = .inactive ∧
      b.accept = true ∧ s.HighestRequest b (fun _ => True) src ∧ s.CanEnter src :=
  ⟨rfl, rfl, rfl, rfl, rfl, interruptState_highest _ _ trivial,
    ⟨rfl, rfl, rfl⟩, ⟨rfl, rfl, rfl⟩, rfl, .inl rfl, .inl rfl⟩

theorem witness_RequestsThatWait :
    let s := interruptState 0x80#8 true [2]
    let u := interruptState 0x00#8 false [1, 2]
    (s.inputs = { reset := .inactive, requests := [2], accept := true } :: [Boundary.quiet] ∧ CCR.i s.ccr = true ∧
        ∀ src ∈ s.chip.sources, src.id ∈ [2] → src.nonmaskable = false) ∧
      (s.mode = .programExecution ∧ { s with holdOff := true }.holdOff = true) ∧
      (u.inputs = { reset := .inactive, requests := [1, 2], accept := false } :: [Boundary.quiet] ∧
        u.mode = .programExecution) := by
  refine ⟨⟨rfl, by decide +kernel, by decide +kernel⟩, ⟨rfl, rfl⟩, rfl, rfl⟩

theorem witness_PowerDownStaysOrWakes :
    let s := { interruptState 0x04#8 true [2, 3] with mode := .powerDown }
    let src : IntSource := { id := 2, vector := 0x0008#16, nonmaskable := false, wakes := true }
    let u := { interruptState 0x80#8 false [2, 3] with mode := .powerDown }
    let q := { ramAt 0x0124#16 [] with mode := .powerDown }
    (s.mode = .powerDown ∧ s.boundary.reset = .inactive ∧ s.holdOff = false ∧
        s.HighestRequest s.boundary (fun x => x.wakes = true) src ∧ s.CanEnter src) ∧
      (u.mode = .powerDown ∧ u.boundary.reset = .inactive ∧
        ∀ x ∈ u.chip.sources, x.wakes = true → x.id ∈ u.boundary.requests → x.nonmaskable = false ∧ CCR.i u.ccr = true) ∧
      (q.mode = .powerDown ∧ q.boundary.reset = .inactive ∧ q.inputs = []) :=
  ⟨⟨rfl, rfl, rfl, interruptState_highest _ _ rfl, ⟨rfl, rfl, rfl⟩, ⟨rfl, rfl, rfl⟩, rfl, .inl rfl, .inl rfl⟩,
    ⟨rfl, rfl, by decide +kernel⟩, ⟨rfl, rfl, rfl⟩⟩

theorem witness_ResetEntry :
    ((resetState 0x00#8 .request .powerDown).boundary.reset = .request ∧
        (resetState 0x00#8 .request .powerDown).WordStorage 0x0000#16) ∧
      ((resetState 0x00#8 .inactive .resetState).boundary.reset = .inactive ∧
        (resetState 0x00#8 .inactive .resetState).mode = .resetState) ∧
      (resetState 0x00#8 .hold .programExecution).boundary.reset = .hold :=
  ⟨⟨rfl, rfl, .inl rfl, .inl rfl⟩, ⟨rfl, rfl⟩, rfl⟩

theorem witness_InterruptThenRteRestores :
    let s := interruptState 0x04#8 true [2, 3]
    let b : Boundary := { reset := .inactive, requests := [2, 3], accept := true }
    let src : IntSource := { id := 2, vector := 0x0008#16, nonmaskable := false, wakes := true }
    s.pc.getLsbD 0 = false ∧ s.mode = .programExecution ∧ s.holdOff = false ∧ s.inputs = b :: [Boundary.quiet] ∧
      b.reset = .inactive ∧ b.accept = true ∧ s.HighestRequest b (fun _ => True) src ∧ s.CanEnter src :=
  ⟨by decide +kernel, witness_InterruptEntry⟩

theorem witness_InvariantKeptByStep :
    (interruptState 0x04#8 true [2, 3]).Inv ∧ (nextOf (step (interruptState 0x04#8 true [2, 3]))).isSome = true :=
  ⟨⟨by decide +kernel, by decide +kernel, by decide +kernel, by decide +kernel⟩, by decide +kernel⟩

theorem witness_WhatInstructionsKeep :
    exec .nop (ramAt 0x0100#16 []) = .next { ramAt 0x0100#16 [] with pc := 0x0102#16 } ∧ Instr.nop ≠ .sleep ∧
      Instr.nop ≠ .rte ∧ (∀ r, Instr.nop ≠ .ldcReg r) ∧
      ∀ imm, Instr.nop ≠ .ldcImm imm ∧ Instr.nop ≠ .andc imm ∧ Instr.nop ≠ .orc imm ∧ Instr.nop ≠ .xorc imm :=
  ⟨rfl, nofun, nofun, nofun, fun _ => ⟨nofun, nofun, nofun, nofun⟩⟩

end Sys2Proof.Tests
end

section
/-! The general registers as pairs of byte registers (R21), assembled from Laws/Registers.lean. -/

namespace Sys2Proof.Machine

/-- Settles O8: the pair read, then the byte write and the word write, each at its own registers and at the others. -/
theorem registerBytesAndPairs : Obligations.RegisterBytesAndPairs := by
  intro s n r b w
  have others : ∀ x, x ≠ .hi n → x ≠ .lo n → (s.setReg n w).regB x = s.regB x := fun x hhi hlo =>
    regB_setReg_notMem s w (by simp [hhi, hlo])
  exact ⟨reg_eq_word s n, regB_setRegB_same s r b, fun _ hx => regB_setRegB_ne s b hx,
    reg_setReg_same s n w, regB_setReg_hi s n w, regB_setReg_lo s n w, others⟩

end Sys2Proof.Machine
end

section
/-! MOV between registers and of immediate data (R121, R122, R133, R134): the shared ending "a register and CCR written,
then the next instruction" once for bytes and once for words, and R120's flags. -/

namespace Sys2Proof.Machine

/-! ### What a register write leaves as it was -/

theorem keepsAllBut_setRegB_setCcr_advance (s : State) (rd : Reg8) (v ccr : Byte) (len : Word) :
    s.KeepsAllBut (((s.setRegB rd v).setCcr ccr).advance len) [rd] [] s := by
  have regs : s.KeepsRegsBut (((s.setRegB rd v).setCcr ccr).advance len) [rd] := fun x hx => by
    rw [advance_regB, setCcr_regB, regB_setRegB_ne s v (List.ne_of_not_mem_cons hx)]
  exact ⟨regs, fun _ _ => by simp, by simp [State.KeepsControl], by simp [State.KeepsEnv]⟩

theorem keepsAllBut_setReg_setCcr_advance (s : State) (rd : Reg16) (v : Word) (ccr : Byte) (len : Word) :
    s.KeepsAllBut (((s.setReg rd v).setCcr ccr).advance len) rd.bytes [] s := by
  have regs : s.KeepsRegsBut (((s.setReg rd v).setCcr ccr).advance len) rd.bytes := fun x hx => by
    rw [advance_regB, setCcr_regB, regB_setReg_notMem s v hx]
  exact ⟨regs, fun _ _ => by simp, by simp [State.KeepsControl], by simp [State.KeepsEnv]⟩

/-! ### A register and CCR written, then the next instruction -/

/-- Whatever instruction computes `v` and `ccr`: only the flags are its own to account for. -/
theorem writesByte_next {s : State} {ccr : Byte} {h n z ov c : Bool} (hc : CCR.Becomes s.ccr ccr h n z ov c)
    (len : Word) (rd : Reg8) (v : Byte) :
    s.WritesByte (.next (((s.setRegB rd v).setCcr ccr).advance len)) len rd v h n z ov c :=
  ⟨_, rfl, by simp, by simp, hc, keepsAllBut_setRegB_setCcr_advance s rd v ccr len⟩

/-- As `writesByte_next`, for a word register. -/
theorem writesWord_next {s : State} {ccr : Byte} {h n z ov c : Bool} (hc : CCR.Becomes s.ccr ccr h n z ov c)
    (len : Word) (rd : Reg16) (v : Word) :
    s.WritesWord (.next (((s.setReg rd v).setCcr ccr).advance len)) len rd v h n z ov c :=
  ⟨_, rfl, by simp, by simp, hc, keepsAllBut_setReg_setCcr_advance s rd v ccr len⟩

/-! ### The common part of MOV (R120) -/

/-- N and Z from the value, V cleared, H and C kept: the flags of MOV and of the logic instructions (R36). -/
theorem becomes_moved {w : Nat} (r : Byte) (v : BitVec w) :
    CCR.Becomes r (CCR.moved r v) (CCR.h r) v.msb (v == 0) false (CCR.c r) := by
  simp [CCR.Becomes]

theorem writesByte_moveToRegB (s : State) (len : Word) (v : Byte) (rd : Reg8) :
    s.WritesByte (.next (s.moveToRegB len v rd)) len rd v (CCR.h s.ccr) v.msb (v == 0#8) false (CCR.c s.ccr) :=
  writesByte_next (becomes_moved s.ccr v) len rd v

theorem writesWord_moveToReg (s : State) (len v : Word) (rd : Reg16) :
    s.WritesWord (.next (s.moveToReg len v rd)) len rd v (CCR.h s.ccr) v.msb (v == 0#16) false (CCR.c s.ccr) :=
  writesWord_next (becomes_moved s.ccr v) len rd v

/-- Settles O13: each encoding is the one of the table, each result the common part of MOV on its operand. -/
theorem movRegisterAndImmediate : Obligations.MovRegisterAndImmediate := fun s bs bd ws wd i8 i16 =>
  ⟨⟨rfl, writesByte_moveToRegB s 2#16 (s.regB bs) bd⟩,
    ⟨rfl, writesByte_moveToRegB s 2#16 i8 bd⟩,
    ⟨rfl, writesWord_moveToReg s 2#16 (s.reg ws) wd⟩,
    ⟨rfl, writesWord_moveToReg s 4#16 i16 wd⟩⟩

end Sys2Proof.Machine
end

section
/-! The sum and the difference of R160 to R163 at every width: the true result brought back into range by at most one
`2 ^ w`, and V read off the signs of the operands and the result. -/

namespace Sys2Proof.Machine

/-! ### Signs and ranges (R160) -/

/-- Two bit vectors have one sign when they are in one half of the range. -/
theorem msb_eq_msb_iff {w : Nat} (x y : BitVec w) :
    x.msb = y.msb ↔ (2 ^ (w - 1) ≤ x.toNat ↔ 2 ^ (w - 1) ≤ y.toNat) := by
  simp [BitVec.msb_eq_decide]

theorem signedOverflow_iff {w : Nat} (t : Int) :
    signedOverflow w t = true ↔ t < -(2 ^ (w - 1) : Nat) ∨ (2 ^ (w - 1) : Nat) ≤ t := by
  simp [signedOverflow]

/-! ### Sums -/

theorem addAlu_c_iff (half : Nat) {w : Nat} (a b : BitVec w) (cin : Bool) :
    (addAlu half a b cin).c = true ↔ 2 ^ w ≤ a.toNat + b.toNat + cin.toNat := by
  simp [addAlu]

theorem addAlu_h_iff (half : Nat) {w : Nat} (a b : BitVec w) (cin : Bool) :
    (addAlu half a b cin).h = true ↔ 2 ^ half ≤ a.toNat % 2 ^ half + b.toNat % 2 ^ half + cin.toNat := by
  simp [addAlu]

theorem addAlu_value_toNat (half : Nat) {w : Nat} (a b : BitVec w) (cin : Bool) :
    (addAlu half a b cin).value.toNat = (a.toNat + b.toNat + cin.toNat) % 2 ^ w :=
  BitVec.toNat_ofNat ..

/-- The sum is at most one `2 ^ w` too large. -/
theorem addAlu_value_toNat_eq_ite (half : Nat) {w : Nat} (a b : BitVec w) (cin : Bool) :
    (addAlu half a b cin).value.toNat =
      if 2 ^ w ≤ a.toNat + b.toNat + cin.toNat then a.toNat + b.toNat + cin.toNat - 2 ^ w
      else a.toNat + b.toNat + cin.toNat := by
  have hcin := cin.toNat_le
  rw [addAlu_value_toNat]
  split
  next hle => rw [Nat.mod_eq_sub_mod hle, Nat.mod_eq_of_lt (by omega)]
  next hlt => exact Nat.mod_eq_of_lt (Nat.lt_of_not_le hlt)

/-- V of a sum: both operands have one sign and the result has the other. -/
theorem addAlu_v_iff (half : Nat) {w : Nat} (hw : 0 < w) (a b : BitVec w) (cin : Bool) :
    (addAlu half a b cin).v = true ↔ a.msb = b.msb ∧ (addAlu half a b cin).value.msb ≠ a.msb := by
  have hv : (addAlu half a b cin).v = signedOverflow w (a.toInt + b.toInt + cin.toNat) := rfl
  have hr := addAlu_value_toNat_eq_ite half a b cin
  have hpow := Nat.two_pow_pred_mul_two hw
  have hcin := cin.toNat_le
  rw [hv, signedOverflow_iff, ne_eq, msb_eq_msb_iff, msb_eq_msb_iff, BitVec.toInt_eq_toNat_cond,
    BitVec.toInt_eq_toNat_cond]
  split_ifs at hr ⊢ <;> omega

/-! ### Differences -/

theorem subAlu_c_iff (half : Nat) {w : Nat} (a b : BitVec w) (bin : Bool) :
    (subAlu half a b bin).c = true ↔ a.toNat < b.toNat + bin.toNat := by
  simp [subAlu]

theorem subAlu_h_iff (half : Nat) {w : Nat} (a b : BitVec w) (bin : Bool) :
    (subAlu half a b bin).h = true ↔ a.toNat % 2 ^ half < b.toNat % 2 ^ half + bin.toNat := by
  simp [subAlu]

/-- The difference is at most one `2 ^ w` too small. -/
theorem subAlu_value_toNat (half : Nat) {w : Nat} (a b : BitVec w) (bin : Bool) :
    (subAlu half a b bin).value.toNat =
      if a.toNat < b.toNat + bin.toNat then a.toNat + 2 ^ w - (b.toNat + bin.toNat)
      else a.toNat - (b.toNat + bin.toNat) := by
  have hv : (subAlu half a b bin).value.toNat = (((a.toNat : Int) - b.toNat - bin.toNat) % (2 ^ w : Nat)).toNat :=
    BitVec.toNat_ofInt ..
  have hbin := bin.toNat_le
  rw [hv]
  split
  next hlt => rw [← Int.add_emod_right, Int.emod_eq_of_lt (by omega) (by omega)]; omega
  next hle => rw [Int.emod_eq_of_lt (by omega) (by omega)]; omega

/-- The result and the subtrahend make up the minuend again. -/
theorem subAlu_value_toNat_add (half : Nat) {w : Nat} (a b : BitVec w) (bin : Bool) :
    ((subAlu half a b bin).value.toNat + b.toNat + bin.toNat) % 2 ^ w = a.toNat := by
  have hbin := bin.toNat_le
  rw [subAlu_value_toNat, Nat.add_assoc]
  split
  next hlt => rw [Nat.sub_add_cancel (by omega), Nat.add_mod_right, Nat.mod_eq_of_lt a.isLt]
  next hle => rw [Nat.sub_add_cancel (Nat.le_of_not_lt hle), Nat.mod_eq_of_lt a.isLt]

/-- V of a difference: the operands have two signs and the result that of the subtrahend. -/
theorem subAlu_v_iff (half : Nat) {w : Nat} (hw : 0 < w) (a b : BitVec w) (bin : Bool) :
    (subAlu half a b bin).v = true ↔ a.msb ≠ b.msb ∧ (subAlu half a b bin).value.msb ≠ a.msb := by
  have hv : (subAlu half a b bin).v = signedOverflow w (a.toInt - b.toInt - bin.toNat) := rfl
  have hr := subAlu_value_toNat half a b bin
  have hpow := Nat.two_pow_pred_mul_two hw
  have hbin := bin.toNat_le
  rw [hv, signedOverflow_iff, ne_eq, ne_eq, msb_eq_msb_iff, msb_eq_msb_iff, BitVec.toInt_eq_toNat_cond,
    BitVec.toInt_eq_toNat_cond]
  split_ifs at hr ⊢ <;> omega

/-! ### The sums and differences of the statements (R161 to R163) -/

theorem addsByte_add8 (a b : Byte) (cin : Bool) :
    AddsByte a b cin (add8 a b cin).value (add8 a b cin).h (add8 a b cin).v (add8 a b cin).c :=
  ⟨addAlu_value_toNat 4 a b cin, addAlu_h_iff 4 a b cin, addAlu_v_iff 4 (by decide) a b cin, addAlu_c_iff 4 a b cin⟩

theorem subtractsByte_sub8 (a b : Byte) (bin : Bool) :
    SubtractsByte a b bin (sub8 a b bin).value (sub8 a b bin).h (sub8 a b bin).v (sub8 a b bin).c :=
  ⟨subAlu_value_toNat_add 4 a b bin, subAlu_h_iff 4 a b bin, subAlu_v_iff 4 (by decide) a b bin,
    subAlu_c_iff 4 a b bin⟩

theorem addsWord_add16 (a b : Word) : AddsWord a b (add16 a b).value (add16 a b).h (add16 a b).v (add16 a b).c :=
  ⟨addAlu_value_toNat 12 a b false, addAlu_h_iff 12 a b false, addAlu_v_iff 12 (by decide) a b false,
    addAlu_c_iff 12 a b false⟩

theorem subtractsWord_sub16 (a b : Word) :
    SubtractsWord a b (sub16 a b).value (sub16 a b).h (sub16 a b).v (sub16 a b).c :=
  ⟨subAlu_value_toNat_add 12 a b false, subAlu_h_iff 12 a b false, subAlu_v_iff 12 (by decide) a b false,
    subAlu_c_iff 12 a b false⟩

end Sys2Proof.Machine
end

section
/-! The arithmetic instructions of R164 to R175, R178 and R180: how each shared ending of Machine/Arithmetic.lean leaves
the state, and each instruction as one of them on its operands. -/

namespace Sys2Proof.Machine

/-! ### The flags written (R35) -/

theorem becomes_arith {w : Nat} (r : Byte) (x : Alu w) : CCR.Becomes r (CCR.arith r x) x.h x.n x.z x.v x.c := by
  simp [CCR.Becomes]

/-- Z of ADDX and SUBX is only ever cleared (R166, R167). -/
theorem becomes_extended {w : Nat} (r : Byte) (x : Alu w) :
    CCR.Becomes r (CCR.extended r x) x.h x.n (CCR.z r && x.z) x.v x.c := by
  simp [CCR.Becomes]

theorem becomes_setNZV (r : Byte) (n z v : Bool) :
    CCR.Becomes r (CCR.setNZV r n z v) (CCR.h r) n z v (CCR.c r) := by
  simp [CCR.Becomes]

/-! ### What the shared endings leave as it was -/

theorem keepsAllBut_setCcr_advance (s : State) (ccr : Byte) (len : Word) :
    s.KeepsAllBut ((s.setCcr ccr).advance len) [] [] s :=
  ⟨fun _ _ => by simp, fun _ _ => by simp, by simp [State.KeepsControl], by simp [State.KeepsEnv]⟩

/-- As `writesByte_next`, where no register is written. -/
theorem writesFlags_next {s : State} {ccr : Byte} {h n z ov c : Bool} (hc : CCR.Becomes s.ccr ccr h n z ov c)
    (len : Word) : s.WritesFlags (.next ((s.setCcr ccr).advance len)) len s h n z ov c :=
  ⟨_, rfl, by simp, hc, keepsAllBut_setCcr_advance s ccr len⟩

/-- A flagless write of a word register is one that writes CCR back (R172, R173, R178). -/
theorem keepsAllBut_adjustW (s : State) (r : Word) (rd : Reg16) : s.KeepsAllBut (s.adjustW r rd) rd.bytes [] s :=
  keepsAllBut_setReg_setCcr_advance s rd r s.ccr 2

/-! ### The shared endings of the instructions with flags -/

theorem writesByte_arithB (s : State) (x : Alu 8) (rd : Reg8) :
    s.WritesByte (.next (s.arithB x rd)) 2#16 rd x.value x.h x.n x.z x.v x.c :=
  writesByte_next (becomes_arith s.ccr x) 2#16 rd x.value

theorem writesWord_arithW (s : State) (x : Alu 16) (rd : Reg16) :
    s.WritesWord (.next (s.arithW x rd)) 2#16 rd x.value x.h x.n x.z x.v x.c :=
  writesWord_next (becomes_arith s.ccr x) 2#16 rd x.value

theorem writesByte_extendB (s : State) (x : Alu 8) (rd : Reg8) :
    s.WritesByte (.next (s.extendB x rd)) 2#16 rd x.value x.h x.n (CCR.z s.ccr && x.z) x.v x.c :=
  writesByte_next (becomes_extended s.ccr x) 2#16 rd x.value

theorem writesFlags_compare {w : Nat} (s : State) (x : Alu w) :
    s.WritesFlags (.next (s.compare x)) 2#16 s x.h x.n x.z x.v x.c :=
  writesFlags_next (becomes_arith s.ccr x) 2#16

theorem writesByte_countB (s : State) (r : Byte) (v : Bool) (rd : Reg8) :
    s.WritesByte (.next (s.countB r v rd)) 2#16 rd r (CCR.h s.ccr) r.msb (r == 0#8) v (CCR.c s.ccr) :=
  writesByte_next (becomes_setNZV s.ccr r.msb (r == 0#8) v) 2#16 rd r

/-! ### ADD, SUB, CMP, ADDX, SUBX, NEG (R164 to R169, R174, R175, R180) -/

/-- Settles O23: both forms write `add8` of Rd and the operand. -/
theorem addByte : Obligations.AddByte := fun s imm rs rd =>
  ⟨⟨rfl, _, _, _, _, addsByte_add8 (s.regB rd) imm false, writesByte_arithB s _ rd⟩,
    ⟨rfl, _, _, _, _, addsByte_add8 (s.regB rd) (s.regB rs) false, writesByte_arithB s _ rd⟩⟩

/-- Settles O24: ADD.W writes `add16`, SUB.W writes `sub16`, CMP.W takes just the flags of `sub16`. -/
theorem addSubCmpWord : Obligations.AddSubCmpWord := fun s rs rd =>
  ⟨⟨rfl, _, _, _, _, addsWord_add16 (s.reg rd) (s.reg rs), writesWord_arithW s _ rd⟩,
    ⟨rfl, _, _, _, _, subtractsWord_sub16 (s.reg rd) (s.reg rs), writesWord_arithW s _ rd⟩,
    ⟨rfl, _, _, _, _, subtractsWord_sub16 (s.reg rd) (s.reg rs), writesFlags_compare s _⟩⟩

/-- Settles O25: `add8` and `sub8` with the old C, Z joined with the old Z. -/
theorem addSubExtended : Obligations.AddSubExtended := fun s imm rs rd =>
  ⟨⟨rfl, _, _, _, _, addsByte_add8 (s.regB rd) imm (CCR.c s.ccr), writesByte_extendB s _ rd⟩,
    ⟨rfl, _, _, _, _, addsByte_add8 (s.regB rd) (s.regB rs) (CCR.c s.ccr), writesByte_extendB s _ rd⟩,
    ⟨rfl, _, _, _, _, subtractsByte_sub8 (s.regB rd) imm (CCR.c s.ccr), writesByte_extendB s _ rd⟩,
    ⟨rfl, _, _, _, _, subtractsByte_sub8 (s.regB rd) (s.regB rs) (CCR.c s.ccr), writesByte_extendB s _ rd⟩⟩

/-- Settles O26: SUB.B and NEG write `sub8`, CMP.B takes just its flags. -/
theorem subCmpNegByte : Obligations.SubCmpNegByte := fun s imm rs rd =>
  ⟨⟨rfl, _, _, _, _, subtractsByte_sub8 (s.regB rd) (s.regB rs) false, writesByte_arithB s _ rd⟩,
    ⟨rfl, _, _, _, _, subtractsByte_sub8 (s.regB rd) imm false, writesFlags_compare s _⟩,
    ⟨rfl, _, _, _, _, subtractsByte_sub8 (s.regB rd) (s.regB rs) false, writesFlags_compare s _⟩,
    ⟨rfl, _, _, _, _, subtractsByte_sub8 0#8 (s.regB rd) false, writesByte_arithB s _ rd⟩⟩

/-! ### INC, DEC, ADDS, SUBS (R170 to R173) -/

/-- Settles O27: the byte counted up or down; adding 1 again undoes the latter. -/
theorem incDec : Obligations.IncDec := fun s rd =>
  have undo : (s.regB rd - 1#8 + 1#8).toNat = (s.regB rd).toNat := by rw [BitVec.sub_add_cancel]
  ⟨⟨rfl, s.regB rd + 1#8, BitVec.toNat_add .., writesByte_countB s _ (s.regB rd == 0x7F#8) rd⟩,
    ⟨rfl, s.regB rd - 1#8, undo, writesByte_countB s _ (s.regB rd == 0x80#8) rd⟩⟩

/-- ADDS and SUBS alike: an instruction that adjusts `rd` leaves the adjusted value, the next PC and all else. -/
theorem adjustsWord_of_exec {s : State} {i : Instr} {v : Word} {rd : Reg16} (h : exec i s = .next (s.adjustW v rd)) :
    ∃ t, exec i s = .next t ∧ t.reg rd = v ∧ t.pc = (s.pc + 2#16) &&& 0xFFFE#16 ∧ t.ccr = s.ccr ∧
      s.KeepsAllBut t rd.bytes [] s :=
  ⟨_, h, reg_setReg_same s rd v, rfl, rfl, keepsAllBut_adjustW s v rd⟩

/-- Settles O28: subtracting 1 or 2 is adding its complement. -/
theorem addsSubs : Obligations.AddsSubs := fun s rd => by
  have minus1 : s.reg rd + 0xFFFF#16 = s.reg rd - 1#16 := (BitVec.sub_eq_add_neg (s.reg rd) 1#16).symm
  have minus2 : s.reg rd + 0xFFFE#16 = s.reg rd - 2#16 := (BitVec.sub_eq_add_neg (s.reg rd) 2#16).symm
  simp only [List.forall_mem_cons, List.not_mem_nil, false_imp_iff, implies_true, and_true, minus1, minus2]
  exact ⟨⟨rfl, rfl, rfl, rfl⟩, adjustsWord_of_exec rfl, adjustsWord_of_exec rfl, adjustsWord_of_exec rfl,
    adjustsWord_of_exec rfl⟩

/-! ### MULXU (R178) -/

/-- The product of two bytes fits a word. -/
theorem toNat_mul_lt (a b : Byte) : a.toNat * b.toNat < 2 ^ 16 :=
  Nat.mul_lt_mul'' (c := 2 ^ 8) (d := 2 ^ 8) a.isLt b.isLt

/-- Settles O32: MULXU adjusts Rd to the product, which no reduction changes. -/
theorem mulxuProduct : Obligations.MulxuProduct := fun s rs rd => by
  obtain ⟨t, hexec, hreg, hpc, hccr, hkeeps⟩ := adjustsWord_of_exec (s := s) (i := .mulxu rs rd) rfl
  have exact_product : (t.reg rd).toNat = (s.regB (.lo rd)).toNat * (s.regB rs).toNat := by
    rw [hreg, BitVec.toNat_ofNat]
    exact Nat.mod_eq_of_lt (toNat_mul_lt (s.regB (.lo rd)) (s.regB rs))
  exact ⟨rfl, t, hexec, exact_product, hpc, hccr, hkeeps⟩

end Sys2Proof.Machine
end

section
/-! The logic instructions AND, OR, XOR and NOT (R201 to R204): each operation bit by bit, and the one ending of
Machine/Logic.lean they share. -/

namespace Sys2Proof.Machine

/-! ### The operations bit by bit -/

theorem isByte_and (a b : Byte) : IsByte (fun k => a.getLsbD k && b.getLsbD k) (a &&& b) :=
  fun _ _ => BitVec.getLsbD_and

theorem isByte_or (a b : Byte) : IsByte (fun k => a.getLsbD k || b.getLsbD k) (a ||| b) :=
  fun _ _ => BitVec.getLsbD_or

theorem isByte_xor (a b : Byte) : IsByte (fun k => a.getLsbD k ^^ b.getLsbD k) (a ^^^ b) :=
  fun _ _ => BitVec.getLsbD_xor

/-- Only the bits inside the byte are complemented: above it both read 0. -/
theorem isByte_not (a : Byte) : IsByte (fun k => !a.getLsbD k) (~~~a) := fun k hk => by
  rw [BitVec.getLsbD_not, decide_eq_true hk, Bool.true_and]

/-! ### The shared ending (R200) -/

theorem writesByte_logicB (s : State) (r : Byte) (rd : Reg8) :
    s.WritesByte (.next (s.logicB r rd)) 2#16 rd r (CCR.h s.ccr) r.msb (r == 0#8) false (CCR.c s.ccr) :=
  writesByte_next (becomes_moved s.ccr r) 2#16 rd r

/-- Every logic instruction alike: it has the bits of the result its ending is given. -/
theorem computesLogic_of_exec {s : State} {i : Instr} {r : Byte} {rd : Reg8} {f : Nat → Bool} (hr : IsByte f r)
    (h : exec i s = .next (s.logicB r rd)) : s.ComputesLogic i rd f :=
  ⟨r, hr, by rw [h]; exact writesByte_logicB s r rd⟩

/-! ### AND, OR, XOR, NOT -/

/-- Settles O35: in each form the encoding is the one of the table, and `exec` is the shared ending on the operation's
result, whose bits are the operation's on the bits of Rd and of the immediate byte or Rs. -/
theorem logicOperations : Obligations.LogicOperations := fun s imm rs rd =>
  ⟨⟨rfl, rfl, computesLogic_of_exec (isByte_and (s.regB rd) imm) rfl,
      computesLogic_of_exec (isByte_and (s.regB rd) (s.regB rs)) rfl⟩,
    ⟨rfl, rfl, computesLogic_of_exec (isByte_or (s.regB rd) imm) rfl,
      computesLogic_of_exec (isByte_or (s.regB rd) (s.regB rs)) rfl⟩,
    ⟨rfl, rfl, computesLogic_of_exec (isByte_xor (s.regB rd) imm) rfl,
      computesLogic_of_exec (isByte_xor (s.regB rd) (s.regB rs)) rfl⟩,
    ⟨rfl, computesLogic_of_exec (isByte_not (s.regB rd)) rfl⟩⟩

end Sys2Proof.Machine
end

section
/-! The shifts and rotates by one position (R211 to R218): each of the two movements bit by bit, and the one ending of
Machine/Shift.lean (R210) they share. -/

namespace Sys2Proof.Machine

/-! ### The movements bit by bit -/

/-- The byte that `fill` becomes before it is moved to its place: at bit 0, and 0 elsewhere. -/
theorem getLsbD_fillByte (fill : Bool) (k : Nat) :
    ((BitVec.ofBool fill).setWidth 8).getLsbD k = (decide (k = 0) && fill) := by
  cases k with
  | zero => simp
  | succ k => simp [BitVec.getLsbD_setWidth]

theorem isByte_shiftLeft (a : Byte) (fill v : Bool) :
    IsByte (fun k => if k = 0 then fill else a.getLsbD (k - 1)) (shiftLeft a fill v).value := fun k hk => by
  have hvalue : (shiftLeft a fill v).value.getLsbD k =
      ((a <<< 1).getLsbD k || ((BitVec.ofBool fill).setWidth 8).getLsbD k) := BitVec.getLsbD_or
  rw [hvalue, BitVec.getLsbD_shiftLeft, getLsbD_fillByte]
  cases k with
  | zero => simp
  | succ k => simp [hk]

theorem isByte_shiftRight (a : Byte) (fill : Bool) :
    IsByte (fun k => if k = 7 then fill else a.getLsbD (k + 1)) (shiftRight a fill).value := fun k hk => by
  have hvalue : (shiftRight a fill).value.getLsbD k =
      ((a >>> 1).getLsbD k || (((BitVec.ofBool fill).setWidth 8) <<< 7).getLsbD k) := BitVec.getLsbD_or
  rw [hvalue, BitVec.getLsbD_ushiftRight, BitVec.getLsbD_shiftLeft, getLsbD_fillByte, Nat.add_comm 1 k]
  rcases Nat.lt_or_eq_of_le (Nat.le_of_lt_succ hk) with hbelow | htop
  · simp [hbelow, hbelow.ne]
  · simp [htop]

/-! ### The shared ending (R210) -/

theorem becomes_shifted (r : Byte) (x : Shifted) :
    CCR.Becomes r (CCR.shifted r x) (CCR.h r) x.value.msb (x.value == 0) x.v x.c := by
  simp [CCR.Becomes]

theorem writesByte_shiftB (s : State) (x : Shifted) (rd : Reg8) :
    s.WritesByte (.next (s.shiftB x rd)) 2#16 rd x.value (CCR.h s.ccr) x.value.msb (x.value == 0#8) x.v x.c :=
  writesByte_next (becomes_shifted s.ccr x) 2#16 rd x.value

/-- SHAL, SHLL, ROTL and ROTXL alike: what enters at bit 0 and the V given are all that tells them apart. -/
theorem shiftsLeft_of_exec {s : State} {i : Instr} {rd : Reg8} {fill ov : Bool}
    (h : exec i s = .next (s.shiftB (shiftLeft (s.regB rd) fill ov) rd)) : s.ShiftsLeft i rd fill ov :=
  ⟨_, isByte_shiftLeft (s.regB rd) fill ov, by rw [h]; exact writesByte_shiftB s _ rd⟩

/-- SHAR, SHLR, ROTR and ROTXR alike: what enters at bit 7 is all that tells them apart. -/
theorem shiftsRight_of_exec {s : State} {i : Instr} {rd : Reg8} {fill : Bool}
    (h : exec i s = .next (s.shiftB (shiftRight (s.regB rd) fill) rd)) : s.ShiftsRight i rd fill :=
  ⟨_, isByte_shiftRight (s.regB rd) fill, by rw [h]; exact writesByte_shiftB s _ rd⟩

/-! ### SHAL, SHAR, SHLL, SHLR, ROTL, ROTR, ROTXL, ROTXR -/

/-- Settles O36: each encoding is the one of the table, and `exec` is the shared ending on one of the two movements,
with the bit shifted in that the statement names. -/
theorem shiftsAndRotates : Obligations.ShiftsAndRotates := fun _ _ =>
  ⟨⟨rfl, shiftsLeft_of_exec rfl⟩, ⟨rfl, shiftsRight_of_exec rfl⟩, -- SHAL, SHAR
    ⟨rfl, shiftsLeft_of_exec rfl⟩, ⟨rfl, shiftsRight_of_exec rfl⟩, -- SHLL, SHLR
    ⟨rfl, shiftsLeft_of_exec rfl⟩, ⟨rfl, shiftsRight_of_exec rfl⟩, -- ROTL, ROTR
    ⟨rfl, shiftsLeft_of_exec rfl⟩, ⟨rfl, shiftsRight_of_exec rfl⟩⟩ -- ROTXL, ROTXR

end Sys2Proof.Machine
end

section
/-! The bit instructions that write a flag and nothing else (R237 to R245): what `testBit` of
Machine/BitManipulation.lean leaves as it was, at either place of the operand byte (R230), and each instruction as one
use of it. -/

namespace Sys2Proof.Machine

/-! ### The operand byte and the bit number (R101, R231, R232) -/

/-- The upper byte H'FF beside the 8-bit address is that address with the upper bits set (R101). -/
theorem eaAbs8_eq_or (aa : Byte) : eaAbs8 aa = 0xFF00#16 ||| aa.setWidth 16 := by
  rw [eaAbs8, word, BitVec.append_def, BitVec.setWidth'_eq]
  rfl

theorem readPlace_abs8 (s : State) (aa : Byte) :
    s.readPlace (.mem (eaAbs8 aa)) = s.loadByte (0xFF00#16 ||| aa.setWidth 16) :=
  congrArg s.loadByte (eaAbs8_eq_or aa)

theorem toNat_bitNumber (s : State) (rn : Reg8) : (s.bitNumber rn).toNat = (s.regB rn).toNat % 8 :=
  BitVec.extractLsb'_toNat 0 3 (s.regB rn)

/-! ### A flag written after the read -/

/-- As `keepsAllBut_setCcr_advance`, where a byte of memory was read before: only the read's own effects are added. -/
theorem keepsAllBut_loadByte_setCcr_advance (s : State) (ea : Word) (ccr : Byte) (len : Word) :
    s.KeepsAllBut (((s.loadByte ea).2.setCcr ccr).advance len) [] [] (s.loadByte ea).2 :=
  ⟨fun _ _ => by simp, fun _ _ => by simp, by simp [State.KeepsControl], by simp [State.KeepsEnv]⟩

/-- As `writesFlags_next`, where a byte of memory was read before. -/
theorem writesFlags_loadByte_next {s : State} {ccr : Byte} {h n z ov c : Bool} (hc : CCR.Becomes s.ccr ccr h n z ov c)
    (ea len : Word) :
    s.WritesFlags (.next (((s.loadByte ea).2.setCcr ccr).advance len)) len (s.loadByte ea).2 h n z ov c :=
  ⟨_, rfl, by simp, hc, keepsAllBut_loadByte_setCcr_advance s ea ccr len⟩

/-- The flags are computed from the old CCR, which the read does not change. -/
theorem testBit_mem (s : State) (len ea : Word) (f : Byte → Byte → Byte) :
    testBit s len (.mem ea) f = .next (((s.loadByte ea).2.setCcr (f (s.loadByte ea).1 s.ccr)).advance len) := by
  rw [← loadByte_ccr s ea]
  rfl

/-- At either place, an instruction that is `testBit` accounts only for its flags. -/
theorem writesFlags_testBit {s : State} {p : BytePlace} {f : Byte → Byte → Byte} {h n z ov c : Bool}
    (hc : CCR.Becomes s.ccr (f (s.readPlace p).1 s.ccr) h n z ov c) (len : Word) :
    s.WritesFlags (testBit s len p f) len (s.readPlace p).2 h n z ov c := by
  cases p with
  | reg r => exact writesFlags_next hc len
  | mem ea =>
    rw [testBit_mem]
    exact writesFlags_loadByte_next hc ea len

/-! ### BTST (R237) -/

theorem becomes_zeroFromBit (bn : BitVec 3) (v r : Byte) :
    CCR.Becomes r (zeroFromBit bn v r) (CCR.h r) (CCR.n r) (!v.getLsbD bn.toNat) (CCR.v r) (CCR.c r) := by
  simp [CCR.Becomes, zeroFromBit, bitOf]

/-- The six forms alike: the place `p` of the byte `v` and the source of the bit number `k` are all that tells them
apart. -/
theorem testsBit_of_exec {s : State} {i : Instr} {len : Word} {bn : BitVec 3} {v : Byte × State} {k : Nat}
    (p : BytePlace) (h : exec i s = testBit s len p (zeroFromBit bn)) (hv : s.readPlace p = v)
    (hk : bn.toNat = k) : s.TestsBit (exec i s) len v k := by
  subst hv hk
  rw [h]
  exact writesFlags_testBit (becomes_zeroFromBit bn (s.readPlace p).1 s.ccr) len

/-- Settles O39: each encoding is the one of the table, and `exec` is `testBit` with Z from the bit, on the byte and the
bit number that the statement names. -/
theorem bitTests : Obligations.BitTests := fun s _ rn rd rm a8 =>
  ⟨⟨rfl, testsBit_of_exec (.reg rd) rfl rfl rfl⟩,
    ⟨rfl, testsBit_of_exec (.mem (s.eaInd rm)) rfl rfl rfl⟩,
    ⟨rfl, testsBit_of_exec (.mem (eaAbs8 a8)) rfl (readPlace_abs8 s a8) rfl⟩,
    ⟨rfl, testsBit_of_exec (.reg rd) rfl rfl (toNat_bitNumber s rn)⟩,
    ⟨rfl, testsBit_of_exec (.mem (s.eaInd rm)) rfl rfl (toNat_bitNumber s rn)⟩,
    ⟨rfl, testsBit_of_exec (.mem (eaAbs8 a8)) rfl (readPlace_abs8 s a8) (toNat_bitNumber s rn)⟩⟩

/-! ### BAND, BIAND, BOR, BIOR, BXOR, BIXOR, BLD, BILD (R238 to R245) -/

/-- The operation `f` on CCR combines C with bit `k` of the byte by `g`, and writes no other flag. -/
def SetsCarryFrom (k : BitVec 3) (f : Byte → Byte → Byte) (g : Bool → Bool → Bool) : Prop :=
  ∀ v ccr, f v ccr = CCR.setC ccr (g (CCR.c ccr) (bitOf v k))

/-- An exclusive or with the inverted bit is the comparison with the bit (R243). -/
theorem setsCarryFrom_xorNotBit (k : BitVec 3) : SetsCarryFrom k (xorNotBit k) (fun c b => c == b) := fun v ccr =>
  have comparison : ∀ c b : Bool, (c ^^ !b) = (c == b) := by decide
  congrArg (CCR.setC ccr) (comparison (CCR.c ccr) (bitOf v k))

/-- Such an operation changes C alone (R35). -/
theorem SetsCarryFrom.becomes {k : BitVec 3} {f : Byte → Byte → Byte} {g : Bool → Bool → Bool}
    (hf : SetsCarryFrom k f g) (v r : Byte) :
    CCR.Becomes r (f v r) (CCR.h r) (CCR.n r) (CCR.z r) (CCR.v r) (g (CCR.c r) (v.getLsbD k.toNat)) := by
  simp [CCR.Becomes, hf v r, bitOf]

/-- The 24 instruction forms alike: the place `p` of the byte `v` and the combination `g` are all that tells them
apart. -/
theorem combinesCarry_of_exec {s : State} {i : Instr} {len : Word} {p : BytePlace} {k : BitVec 3} {v : Byte × State}
    {f : Byte → Byte → Byte} {g : Bool → Bool → Bool} (hf : SetsCarryFrom k f g) (h : exec i s = testBit s len p f)
    (hv : s.readPlace p = v) : s.CombinesCarry (exec i s) len v k.toNat g := by
  subst hv
  rw [h]
  exact writesFlags_testBit (hf.becomes (s.readPlace p).1 s.ccr) len

/-- The three forms of one operation, from their encodings and from `exec` being `testBit` on the three places. -/
theorem combinesCarryAll_of_exec {s : State} {k : BitVec 3} {rd : Reg8} {rm : Reg16} {a8 first : Byte} {num : BitVec 4}
    {onReg onInd onAbs : Instr} {g : Bool → Bool → Bool} (f : Byte → Byte → Byte) (hf : SetsCarryFrom k f g)
    (codes : encode onReg = [first, num ++ rd.code] ∧
      encode onInd = [0x7C#8, nib0 rm.code ++ 0x0#4, first, num ++ 0x0#4] ∧
      encode onAbs = [0x7E#8, a8, first, num ++ 0x0#4])
    (execs : exec onReg s = testBit s 2 (.reg rd) f ∧ exec onInd s = testBit s 4 (.mem (s.eaInd rm)) f ∧
      exec onAbs s = testBit s 4 (.mem (eaAbs8 a8)) f) :
    s.CombinesCarryAll k rd rm a8 first num onReg onInd onAbs g := by
  obtain ⟨codeReg, codeInd, codeAbs⟩ := codes
  obtain ⟨execReg, execInd, execAbs⟩ := execs
  exact ⟨⟨codeReg, combinesCarry_of_exec hf execReg rfl⟩, ⟨codeInd, combinesCarry_of_exec hf execInd rfl⟩,
    ⟨codeAbs, combinesCarry_of_exec hf execAbs (readPlace_abs8 s a8)⟩⟩

/-- Settles O40: each operation on CCR is, as the model writes it, the combination that the statement names; BIXOR alone
is written another way. -/
theorem carryBitOperations : Obligations.CarryBitOperations := fun _ k _ _ _ =>
  ⟨combinesCarryAll_of_exec (andBit k) (fun _ _ => rfl) ⟨rfl, rfl, rfl⟩ ⟨rfl, rfl, rfl⟩,
    combinesCarryAll_of_exec (andNotBit k) (fun _ _ => rfl) ⟨rfl, rfl, rfl⟩ ⟨rfl, rfl, rfl⟩,
    combinesCarryAll_of_exec (orBit k) (fun _ _ => rfl) ⟨rfl, rfl, rfl⟩ ⟨rfl, rfl, rfl⟩,
    combinesCarryAll_of_exec (orNotBit k) (fun _ _ => rfl) ⟨rfl, rfl, rfl⟩ ⟨rfl, rfl, rfl⟩,
    combinesCarryAll_of_exec (xorBit k) (fun _ _ => rfl) ⟨rfl, rfl, rfl⟩ ⟨rfl, rfl, rfl⟩,
    combinesCarryAll_of_exec (xorNotBit k) (setsCarryFrom_xorNotBit k) ⟨rfl, rfl, rfl⟩ ⟨rfl, rfl, rfl⟩,
    combinesCarryAll_of_exec (loadBit k) (fun _ _ => rfl) ⟨rfl, rfl, rfl⟩ ⟨rfl, rfl, rfl⟩,
    combinesCarryAll_of_exec (loadNotBit k) (fun _ _ => rfl) ⟨rfl, rfl, rfl⟩ ⟨rfl, rfl, rfl⟩⟩

end Sys2Proof.Machine
end

section
/-! The conditional branches (R271): the one ending `branchIf` of Machine/Branch.lean they share, the compound conditions
on the flags, and each of the sixteen instructions as one use of that ending. -/

namespace Sys2Proof.Machine

/-! ### Control transfer (R270) -/

theorem keepsAllBut_setPc (s : State) (target : Word) : s.KeepsAllBut (s.setPc target) [] [] s :=
  ⟨fun _ _ => by simp, fun _ _ => by simp, by simp [State.KeepsControl], by simp [State.KeepsEnv]⟩

theorem goesTo_setPc (s : State) (target : Word) : s.GoesTo (.next (s.setPc target)) target s :=
  ⟨_, rfl, setPc_pc s target, setPc_ccr s target, keepsAllBut_setPc s target⟩

theorem branches_branchIf {cond : Bool} {p : Prop} (hp : cond = true ↔ p) (s : State) (disp : Byte) :
    s.Branches (.next (s.branchIf cond disp)) disp p := by
  cases cond with
  | true => exact ⟨fun _ => goesTo_setPc s (s.branchTarget disp), fun hnot => absurd (hp.mp rfl) hnot⟩
  | false => exact ⟨fun h => absurd (hp.mpr h) Bool.false_ne_true, fun _ => goesTo_setPc s (s.nextPc 2)⟩

/-- The sixteen branches alike: the condition is all that tells them apart. -/
theorem branches_of_exec {s : State} {i : Instr} {disp : Byte} {cond : Bool} {p : Prop} (hp : cond = true ↔ p)
    (h : exec i s = .next (s.branchIf cond disp)) : s.Branches (exec i s) disp p := by
  rw [h]
  exact branches_branchIf hp s disp

/-! ### The compound conditions (R271) -/

theorem lowOrSame_iff (r : Byte) : CCR.lowOrSame r = true ↔ CCR.c r = true ∨ CCR.z r = true :=
  Bool.or_eq_true_iff

theorem not_lowOrSame_iff (r : Byte) : (!CCR.lowOrSame r) = true ↔ CCR.c r = false ∧ CCR.z r = false := by
  rw [Bool.not_eq_true', CCR.lowOrSame, Bool.or_eq_false_iff]

theorem lessThan_iff (r : Byte) : CCR.lessThan r = true ↔ CCR.n r ≠ CCR.v r :=
  bne_iff_ne

theorem not_lessThan_iff (r : Byte) : (!CCR.lessThan r) = true ↔ CCR.n r = CCR.v r := by
  rw [Bool.not_eq_true', ← Bool.not_eq_true, lessThan_iff, not_not]

theorem lessOrEqual_iff (r : Byte) : CCR.lessOrEqual r = true ↔ CCR.z r = true ∨ CCR.n r ≠ CCR.v r := by
  rw [← lessThan_iff]
  exact Bool.or_eq_true_iff

theorem not_lessOrEqual_iff (r : Byte) : (!CCR.lessOrEqual r) = true ↔ CCR.z r = false ∧ CCR.n r = CCR.v r := by
  rw [Bool.not_eq_true', ← Bool.not_eq_true, lessOrEqual_iff, not_or, Bool.not_eq_true, not_not]

/-! ### Bcc -/

/-- Settles O41: each encoding is the one of the table, and `exec` is `branchIf` on the condition that the statement
names. -/
theorem conditionalBranches : Obligations.ConditionalBranches := by
  rintro s d _ _ _ _ rfl rfl rfl rfl
  exact ⟨rfl,
    branches_of_exec (iff_of_true rfl trivial) rfl, -- BRA
    branches_of_exec (iff_of_false Bool.false_ne_true id) rfl, -- BRN
    branches_of_exec (not_lowOrSame_iff s.ccr) rfl, branches_of_exec (lowOrSame_iff s.ccr) rfl, -- BHI, BLS
    branches_of_exec (Bool.not_eq_true' _).to_iff rfl, branches_of_exec Iff.rfl rfl, -- BCC, BCS
    branches_of_exec (Bool.not_eq_true' _).to_iff rfl, branches_of_exec Iff.rfl rfl, -- BNE, BEQ
    branches_of_exec (Bool.not_eq_true' _).to_iff rfl, branches_of_exec Iff.rfl rfl, -- BVC, BVS
    branches_of_exec (Bool.not_eq_true' _).to_iff rfl, branches_of_exec Iff.rfl rfl, -- BPL, BMI
    branches_of_exec (not_lessThan_iff s.ccr) rfl, branches_of_exec (lessThan_iff s.ccr) rfl, -- BGE, BLT
    branches_of_exec (not_lessOrEqual_iff s.ccr) rfl, branches_of_exec (lessOrEqual_iff s.ccr) rfl⟩ -- BGT, BLE

end Sys2Proof.Machine
end

section
/-! The system control instructions on CCR and NOP (R302 to R308): the one ending `loadCcr` of
Machine/SystemControl.lean that all but STC share, and STC's register write, which leaves CCR. -/

namespace Sys2Proof.Machine

/-! ### CCR written, all eight bits -/

/-- All eight bits are the value's: no flag, no mask bit and no user bit is computed or kept. -/
theorem loadsCcr_loadCcr (s : State) (c : Byte) : s.LoadsCcr (.next (s.loadCcr c)) c :=
  ⟨_, rfl, advance_ccr (s.setCcr c) 2, advance_pc (s.setCcr c) 2, keepsAllBut_setCcr_advance s c 2⟩

/-- LDC, ANDC, ORC, XORC and NOP alike: the byte that becomes CCR is all that tells them apart. -/
theorem loadsCcr_of_exec {s : State} {i : Instr} {c : Byte} (h : exec i s = .next (s.loadCcr c)) :
    s.LoadsCcr (exec i s) c := by
  rw [h]
  exact loadsCcr_loadCcr s c

/-- Moving PC alone is loading CCR with itself. -/
theorem loadCcr_self (s : State) : s.loadCcr s.ccr = s.advance 2 := rfl

/-! ### A byte register written, CCR left -/

theorem setCcr_setRegB_self (s : State) (rd : Reg8) (v : Byte) : (s.setRegB rd v).setCcr s.ccr = s.setRegB rd v := by
  cases rd <;> rfl

/-- A flagless write of a byte register is one that writes CCR back. -/
theorem keepsAllBut_setRegB_advance (s : State) (rd : Reg8) (v : Byte) (len : Word) :
    s.KeepsAllBut ((s.setRegB rd v).advance len) [rd] [] s := by
  rw [← setCcr_setRegB_self]
  exact keepsAllBut_setRegB_setCcr_advance s rd v s.ccr len

/-! ### LDC and STC -/

/-- Settles O48: LDC loads CCR with its operand; STC is a flagless write of CCR's value to its register. -/
theorem loadAndStoreCcr : Obligations.LoadAndStoreCcr := fun s _ r =>
  ⟨⟨rfl, loadsCcr_of_exec rfl⟩, ⟨rfl, loadsCcr_of_exec rfl⟩,
    ⟨rfl, _, rfl, by simp, by simp, by simp, keepsAllBut_setRegB_advance s r s.ccr 2⟩⟩

/-! ### ANDC, ORC, XORC and NOP -/

/-- Settles O49: the first three load CCR with the operation's result, whose bits are the operation's on the bits of CCR
and of the immediate byte; NOP loads CCR with itself. -/
theorem logicOnCcrAndNop : Obligations.LogicOnCcrAndNop := fun s imm =>
  ⟨⟨rfl, rfl, rfl, rfl⟩,
    ⟨_, isByte_and s.ccr imm, loadsCcr_of_exec rfl⟩,
    ⟨_, isByte_or s.ccr imm, loadsCcr_of_exec rfl⟩,
    ⟨_, isByte_xor s.ccr imm, loadsCcr_of_exec rfl⟩,
    loadsCcr_of_exec (congrArg Host.Outcome.next (loadCcr_self s).symm)⟩

end Sys2Proof.Machine
end

section
/-! Decoding and encoding (R80 to R96): `decode` in terms of its 2-byte and 4-byte tables, each table's rows read back to
the code they stand for, and the two round trips. -/

namespace Sys2Proof

/-! ### Nibbles and their fields -/

theorem toNat_hi4 (b : Byte) : (hi4 b).toNat = b.toNat / 16 := by
  have := b.isLt
  rw [hi4, BitVec.extractLsb'_toNat, Nat.shiftRight_eq_div_pow]
  omega

theorem toNat_lo4 (b : Byte) : (lo4 b).toNat = b.toNat % 16 := by
  rw [lo4, BitVec.extractLsb'_toNat, Nat.shiftRight_zero]

theorem byte_eq_ofNat (u l : BitVec 4) : byte u l = BitVec.ofNat 8 (16 * u.toNat + l.toNat) := by
  revert u l
  decide +kernel

/-- A byte as its two digits. -/
theorem byte_eq_ofNat_digits (b : Byte) : b = BitVec.ofNat 8 (16 * (hi4 b).toNat + (lo4 b).toNat) := by
  rw [← byte_eq_ofNat, byte_hi4_lo4]

theorem byte_cases (b : Byte) : ∃ u l, b = byte u l := ⟨hi4 b, lo4 b, (byte_hi4_lo4 b).symm⟩

/-- A nibble is a selector bit and a register number (R84, R94). -/
theorem nib_cases (n : BitVec 4) : ∃ (t : Bool) (r : Reg16), n = nib t r.code := ⟨top n, reg16 n, (nib_reg16 n).symm⟩

theorem nib_code_r7 (t : Bool) : nib t Reg16.r7.code = if t then 0xF#4 else 0x7#4 := by
  cases t <;> rfl

/-! ### What `decode` answers -/

theorem undefinedFirst_iff (b0 : Byte) : undefinedFirst b0 = true ↔
    b0 ∈ [0x52#8, 0x53#8, 0x57#8, 0x58#8, 0x5C#8, 0x64#8, 0x65#8, 0x66#8, 0x78#8, 0x7A#8] := by
  simp only [undefinedFirst, Bool.or_eq_true, beq_iff_eq, List.mem_cons, List.not_mem_nil, or_false, or_assoc]
  rfl

theorem decode_of_decodeShort {b0 b1 : Byte} {i : Instr} (hdef : undefinedFirst b0 = false) (hlen : isLong b0 = false)
    (h : decodeShort b0 b1 = some i) (rest : List Byte) : decode (b0 :: b1 :: rest) = .ok (i, rest) := by
  unfold decode
  simp only [hdef, hlen, h, Bool.false_eq_true, if_false]

theorem decode_of_decodeLong {b0 b1 b2 b3 : Byte} {i : Instr} (hlen : isLong b0 = true)
    (h : decodeLong b0 b1 b2 b3 = some i) (rest : List Byte) :
    decode (b0 :: b1 :: b2 :: b3 :: rest) = .ok (i, rest) := by
  unfold decode
  simp only [undefinedFirst_of_isLong b0 hlen, hlen, h, Bool.false_eq_true, if_false, if_true]

/-- All an answer of `decode` can come from: a word of the 2-byte table or two words of the 4-byte table. -/
theorem decode_ok_cases {bytes rest : List Byte} {i : Instr} (h : decode bytes = .ok (i, rest)) :
    (∃ b0 b1, bytes = b0 :: b1 :: rest ∧ undefinedFirst b0 = false ∧ isLong b0 = false ∧ decodeShort b0 b1 = some i) ∨
      ∃ b0 b1 b2 b3, bytes = b0 :: b1 :: b2 :: b3 :: rest ∧ isLong b0 = true ∧ decodeLong b0 b1 b2 b3 = some i := by
  unfold decode at h
  split at h
  case h_2 => cases h
  case h_1 b0 b1 tail =>
    split at h
    next => cases h
    next hdef =>
      split at h
      next hlong =>
        split at h
        case h_2 => cases h
        case h_1 b2 b3 tail' =>
          split at h
          next j hj => cases h; exact .inr ⟨b0, b1, b2, b3, rfl, hlong, hj⟩
          next => cases h
      next hshort =>
        split at h
        next j hj => cases h; exact .inl ⟨b0, b1, rfl, Bool.eq_false_iff.mpr hdef, Bool.eq_false_iff.mpr hshort, hj⟩
        next => cases h

/-- Settles O3: `decode` looks at the second byte only after the first is found defined, and then answers no such
error. -/
theorem undefinedFirstBytesRejected : Obligations.UndefinedFirstBytesRejected := by
  intro b0 b1 rest
  rw [← undefinedFirst_iff]
  cases hdef : undefinedFirst b0 with
  | true =>
    unfold decode
    simp [hdef]
  | false =>
    unfold decode
    simp only [hdef, Bool.false_eq_true, if_false, iff_false]
    intro h
    repeat' split at h
    all_goals cases h

/-- Settles O4: each word evaluates to its instruction. -/
theorem sampleWordsDecode : Obligations.SampleWordsDecode := by
  unfold Obligations.SampleWordsDecode
  decide +kernel

/-! ### The tables read back to codes (R96) -/

/-- `code` is the code of `i`, and `i` is the canonical spelling of it. -/
def Instr.Spells (i : Instr) (code : List Byte) : Prop := i.wellFormed = true ∧ encode i = code

theorem spells_of_decodeRow0 {c : BitVec 4} {b1 : Byte} {i : Instr} (h : decodeRow0 c b1 = some i) :
    i.Spells [BitVec.ofNat 8 (0x00 + c.toNat), b1] := by
  obtain ⟨u, l, rfl⟩ := byte_cases b1
  obtain ⟨t, r, rfl⟩ := nib_cases u
  obtain ⟨t', x, rfl⟩ := nib_cases l
  simp only [decodeRow0, hi4_byte, lo4_byte, top_nib, reg16_nib_code] at h
  split at h <;> rename_i hc
  case h_17 => cases h
  all_goals
    (repeat' split at h) <;> cases h <;> refine ⟨rfl, ?_⟩ <;>
      simp_all [encode, byte88, byte1616]

theorem spells_of_decodeRow1 {c : BitVec 4} {b1 : Byte} {i : Instr} (h : decodeRow1 c b1 = some i) :
    i.Spells [BitVec.ofNat 8 (0x10 + c.toNat), b1] := by
  obtain ⟨u, l, rfl⟩ := byte_cases b1
  obtain ⟨t, r, rfl⟩ := nib_cases u
  obtain ⟨t', x, rfl⟩ := nib_cases l
  simp only [decodeRow1, hi4_byte, lo4_byte, top_nib, reg16_nib_code] at h
  split at h <;> rename_i hc
  case h_17 => cases h
  all_goals
    (repeat' split at h) <;> cases h <;> refine ⟨rfl, ?_⟩ <;>
      simp_all [encode, byte88, byte1616]

theorem spells_of_decodeRow4 {c : BitVec 4} {b1 : Byte} {i : Instr} (h : decodeRow4 c b1 = some i) :
    i.Spells [BitVec.ofNat 8 (0x40 + c.toNat), b1] := by
  simp only [decodeRow4] at h
  split at h <;> rename_i hc
  case h_17 => cases h
  all_goals
    cases h
    rw [hc]
    exact ⟨rfl, rfl⟩

theorem spells_of_decodeRow5 {c : BitVec 4} {b1 : Byte} {i : Instr} (h : decodeRow5 c b1 = some i) :
    i.Spells [BitVec.ofNat 8 (0x50 + c.toNat), b1] := by
  obtain ⟨u, l, rfl⟩ := byte_cases b1
  obtain ⟨t, r, rfl⟩ := nib_cases u
  obtain ⟨t', x, rfl⟩ := nib_cases l
  simp only [decodeRow5, hi4_byte, lo4_byte, top_nib, reg16_nib_code] at h
  split at h <;> rename_i hc
  case h_10 => cases h
  all_goals
    (repeat' split at h) <;> cases h
    refine ⟨rfl, ?_⟩
    simp_all [encode, indWord]

/-- The row of `MOV.W` with R7 as the auto-modified register is where a canonical spelling is chosen (R107). -/
theorem spells_of_decodeRow6 {c : BitVec 4} {b1 : Byte} {i : Instr} (h : decodeRow6 c b1 = some i) :
    i.Spells [BitVec.ofNat 8 (0x60 + c.toNat), b1] := by
  obtain ⟨u, l, rfl⟩ := byte_cases b1
  obtain ⟨t, r, rfl⟩ := nib_cases u
  obtain ⟨t', x, rfl⟩ := nib_cases l
  simp only [decodeRow6, hi4_byte, lo4_byte, top_nib, low3_nib, reg16_nib_code] at h
  split at h <;> rename_i hc
  case h_10 => cases h
  all_goals
    (repeat' split at h) <;> cases h <;>
      simp_all [Instr.Spells, Instr.wellFormed, Instr.postIncSpelling, Instr.preDecSpelling, encode, byte88, nib_code_r7]

theorem spells_of_decodeRow7 {c : BitVec 4} {b1 : Byte} {i : Instr} (h : decodeRow7 c b1 = some i) :
    i.Spells [BitVec.ofNat 8 (0x70 + c.toNat), b1] := by
  obtain ⟨u, l, rfl⟩ := byte_cases b1
  obtain ⟨t, r, rfl⟩ := nib_cases u
  simp only [decodeRow7, hi4_byte, lo4_byte, top_nib, low3_nib] at h
  split at h <;> rename_i hc
  case h_9 => cases h
  all_goals
    (repeat' split at h) <;> cases h <;> refine ⟨rfl, ?_⟩ <;>
      simp_all [encode]

/-- A word of the 2-byte table, by the row of its first byte; a row with a register in the first byte has the code
`byte n r`. -/
theorem spells_of_decodeShort {b0 b1 : Byte} {i : Instr} (h : decodeShort b0 b1 = some i) : i.Spells [b0, b1] := by
  rw [byte_eq_ofNat_digits b0]
  unfold decodeShort at h
  split at h
  case h_1 hr => rw [hr]; exact spells_of_decodeRow0 h
  case h_2 hr => rw [hr]; exact spells_of_decodeRow1 h
  case h_5 hr => rw [hr]; exact spells_of_decodeRow4 h
  case h_6 hr => rw [hr]; exact spells_of_decodeRow5 h
  case h_7 hr => rw [hr]; exact spells_of_decodeRow6 h
  case h_8 hr => rw [hr]; exact spells_of_decodeRow7 h
  case h_16 =>
    have hr : (hi4 b0).toNat = 0xF := by
      have := (hi4 b0).isLt
      simp only [imp_false] at *
      omega
    cases h
    exact ⟨rfl, by simp [encode, byte_eq_ofNat, hr]⟩
  all_goals
    rename_i hr
    cases h
    exact ⟨rfl, by simp [encode, byte_eq_ofNat, hr]⟩

theorem spells_of_decodeBitReadInd {r : Reg16} {b2 b3 : Byte} {i : Instr} (h : decodeBitReadInd r b2 b3 = some i) :
    i.Spells (indWord 0x7C r ++ [BitVec.ofNat 8 b2.toNat, b3]) := by
  obtain ⟨u, l, rfl⟩ := byte_cases b3
  obtain ⟨t, x, rfl⟩ := nib_cases u
  simp only [decodeBitReadInd, hi4_byte, lo4_byte, top_nib, low3_nib] at h
  split at h
  case isTrue => cases h
  split at h <;> rename_i hc
  case h_7 => cases h
  all_goals
    (repeat' split at h) <;> cases h <;> refine ⟨rfl, ?_⟩ <;>
      simp_all [encode, immWord]

theorem spells_of_decodeBitReadAbs {aa b2 b3 : Byte} {i : Instr} (h : decodeBitReadAbs aa b2 b3 = some i) :
    i.Spells ([0x7E, aa] ++ [BitVec.ofNat 8 b2.toNat, b3]) := by
  obtain ⟨u, l, rfl⟩ := byte_cases b3
  obtain ⟨t, x, rfl⟩ := nib_cases u
  simp only [decodeBitReadAbs, hi4_byte, lo4_byte, top_nib, low3_nib] at h
  split at h
  case isTrue => cases h
  split at h <;> rename_i hc
  case h_7 => cases h
  all_goals
    (repeat' split at h) <;> cases h <;> refine ⟨rfl, ?_⟩ <;>
      simp_all [encode, immWord]

theorem spells_of_decodeBitWriteInd {r : Reg16} {b2 b3 : Byte} {i : Instr} (h : decodeBitWriteInd r b2 b3 = some i) :
    i.Spells (indWord 0x7D r ++ [BitVec.ofNat 8 b2.toNat, b3]) := by
  obtain ⟨u, l, rfl⟩ := byte_cases b3
  obtain ⟨t, x, rfl⟩ := nib_cases u
  simp only [decodeBitWriteInd, hi4_byte, lo4_byte, top_nib, low3_nib] at h
  split at h
  case isTrue => cases h
  split at h <;> rename_i hc
  case h_8 => cases h
  all_goals
    (repeat' split at h) <;> cases h <;> refine ⟨rfl, ?_⟩ <;>
      simp_all [encode, immWord]

theorem spells_of_decodeBitWriteAbs {aa b2 b3 : Byte} {i : Instr} (h : decodeBitWriteAbs aa b2 b3 = some i) :
    i.Spells ([0x7F, aa] ++ [BitVec.ofNat 8 b2.toNat, b3]) := by
  obtain ⟨u, l, rfl⟩ := byte_cases b3
  obtain ⟨t, x, rfl⟩ := nib_cases u
  simp only [decodeBitWriteAbs, hi4_byte, lo4_byte, top_nib, low3_nib] at h
  split at h
  case isTrue => cases h
  split at h <;> rename_i hc
  case h_8 => cases h
  all_goals
    (repeat' split at h) <;> cases h <;> refine ⟨rfl, ?_⟩ <;>
      simp_all [encode, immWord]

theorem byte_eq_ofNat_toNat (b : Byte) : b = BitVec.ofNat 8 b.toNat := BitVec.eq_of_toNat_eq (by simp)

/-- Two words of the 4-byte table, by the first byte. -/
theorem spells_of_decodeLong {b0 b1 b2 b3 : Byte} {i : Instr} (h : decodeLong b0 b1 b2 b3 = some i) :
    i.Spells [b0, b1, b2, b3] := by
  obtain ⟨u, l, rfl⟩ := byte_cases b1
  obtain ⟨t, r, rfl⟩ := nib_cases u
  obtain ⟨t', x, rfl⟩ := nib_cases l
  rw [byte_eq_ofNat_toNat b0]
  simp only [decodeLong, hi4_byte, lo4_byte, top_nib, reg16_nib_code] at h
  split at h <;> rename_i hc <;> try rw [hc]
  case h_9 =>
    split at h
    next => cases h
    next hfixed =>
      have := spells_of_decodeBitReadInd h
      rw [← byte_eq_ofNat_toNat] at this
      simp_all [indWord]
  case h_10 =>
    split at h
    next => cases h
    next hfixed =>
      have := spells_of_decodeBitWriteInd h
      rw [← byte_eq_ofNat_toNat] at this
      simp_all [indWord]
  case h_11 => rw [byte_eq_ofNat_toNat b2]; exact spells_of_decodeBitReadAbs h
  case h_12 => rw [byte_eq_ofNat_toNat b2]; exact spells_of_decodeBitWriteAbs h
  case h_13 => cases h
  all_goals
    (repeat' split at h) <;> cases h <;> refine ⟨rfl, ?_⟩ <;>
      simp_all [encode]

/-- Settles O2: each table read back; the bytes after the code are the rest. -/
theorem encodeOfDecode : Obligations.EncodeOfDecode := by
  intro bytes rest i h
  rcases decode_ok_cases h with ⟨b0, b1, rfl, _, _, hrow⟩ | ⟨b0, b1, b2, b3, rfl, _, hrow⟩
  · obtain ⟨hwf, hcode⟩ := spells_of_decodeShort hrow
    exact ⟨hwf, by rw [hcode]; rfl⟩
  · obtain ⟨hwf, hcode⟩ := spells_of_decodeLong hrow
    exact ⟨hwf, by rw [hcode]; rfl⟩

/-! ### Codes decoded (R80 to R92) -/

/-- A code with a register number in the lower four bits of its first byte: rows 2, 3 and 8 to 15 of the map (R93). -/
theorem decode_of_nibble {n c : BitVec 4} {b1 : Byte} {i : Instr}
    (hn : ∀ c, undefinedFirst (byte n c) = false ∧ isLong (byte n c) = false)
    (h : decodeShort (byte n c) b1 = some i) (rest : List Byte) : decode (byte n c :: b1 :: rest) = .ok (i, rest) :=
  decode_of_decodeShort (hn c).1 (hn c).2 h rest

/-- Settles O1, row by row of the first-byte map (R93), then the 4-byte forms; being well-formed counts in the two forms
that R107 spells as POP and PUSH. -/
theorem decodeOfEncode : Obligations.DecodeOfEncode := by
  intro i rest hwf
  cases i with
  -- rows 0 and 1
  | nop | sleep | stc _ | ldcReg _ | orc _ | xorc _ | andc _ | ldcImm _ | addBReg _ _ | addW _ _ | inc _ | adds1 _
  | adds2 _ | movBReg _ _ | movWReg _ _ | addxReg _ _ | daa _ =>
    exact decode_of_decodeShort rfl rfl
      (by simp [decodeShort, decodeRow0, byte88, byte1616, toNat_hi4, toNat_lo4]) rest
  | shll _ | shal _ | shlr _ | shar _ | rotxl _ | rotl _ | rotxr _ | rotr _ | orReg _ _ | xorReg _ _ | andReg _ _
  | notB _ | neg _ | subB _ _ | subW _ _ | dec _ | subs1 _ | subs2 _ | cmpBReg _ _ | cmpW _ _ | subxReg _ _ | das _ =>
    exact decode_of_decodeShort rfl rfl
      (by simp [decodeShort, decodeRow1, byte88, byte1616, toNat_hi4, toNat_lo4]) rest
  -- rows 2, 3 and 8 to 15
  | movBAbs8 _ _ | movBToAbs8 _ _ | addBImm _ _ | addxImm _ _ | cmpBImm _ _ | subxImm _ _ | orImm _ _ | xorImm _ _
  | andImm _ _ | movBImm _ _ =>
    exact decode_of_nibble (by decide +kernel) (by simp [decodeShort]) rest
  -- rows 4 to 7
  | bra _ | brn _ | bhi _ | bls _ | bcc _ | bcs _ | bne _ | beq _ | bvc _ | bvs _ | bpl _ | bmi _ | bge _ | blt _
  | bgt _ | ble _ =>
    exact decode_of_decodeShort rfl rfl rfl rest
  | mulxu _ _ | divxu _ _ | rts | bsr _ | rte | jmpInd _ | jmpMemInd _ | jsrInd _ | jsrMemInd _ =>
    exact decode_of_decodeShort rfl rfl (by simp [decodeShort, decodeRow5, toNat_hi4, toNat_lo4]) rest
  | bsetRegReg _ _ | bnotRegReg _ _ | bclrRegReg _ _ | btstRegReg _ _ | bistReg _ _ | bstReg _ _ | movBToInd _ _
  | movBInd _ _ | movWToInd _ _ | movWInd _ _ | movBPreDec _ _ | movBPostInc _ _ =>
    exact decode_of_decodeShort rfl rfl (by simp [decodeShort, decodeRow6, byte88, toNat_hi4, toNat_lo4]) rest
  | pop rd =>
    exact decode_of_decodeShort (b1 := byte (nib false Reg16.r7.code) (nib false rd.code)) rfl rfl
      (by simp [decodeShort, decodeRow6, toNat_hi4, toNat_lo4]) rest
  | push rs =>
    exact decode_of_decodeShort (b1 := byte (nib true Reg16.r7.code) (nib false rs.code)) rfl rfl
      (by simp [decodeShort, decodeRow6, toNat_hi4, toNat_lo4]) rest
  | movWPreDec _ rm | movWPostInc rm _ =>
    have hr7 : rm ≠ .r7 := by simpa [Instr.wellFormed, Instr.postIncSpelling, Instr.preDecSpelling] using hwf
    exact decode_of_decodeShort rfl rfl (by simp [decodeShort, decodeRow6, toNat_hi4, toNat_lo4, hr7]) rest
  | bsetImmReg _ _ | bnotImmReg _ _ | bclrImmReg _ _ | btstImmReg _ _ | biorReg _ _ | borReg _ _ | bixorReg _ _
  | bxorReg _ _ | biandReg _ _ | bandReg _ _ | bildReg _ _ | bldReg _ _ =>
    exact decode_of_decodeShort rfl rfl (by simp [decodeShort, decodeRow7, toNat_hi4, toNat_lo4]) rest
  -- the 4-byte forms
  | jmpAbs _ | jsrAbs _ | movBAbs16 _ _ | movBToAbs16 _ _ | movWAbs16 _ _ | movWToAbs16 _ _ | movBToDisp _ _ _
  | movBDisp _ _ _ | movWToDisp _ _ _ | movWDisp _ _ _ | movWImm _ _ | eepmov =>
    exact decode_of_decodeLong rfl (by simp [decodeLong]) rest
  | btstRegInd _ _ | btstImmInd _ _ | biorInd _ _ | borInd _ _ | bixorInd _ _ | bxorInd _ _ | biandInd _ _ | bandInd _ _
  | bildInd _ _ | bldInd _ _ =>
    exact decode_of_decodeLong rfl (by simp [decodeLong, decodeBitReadInd]) rest
  | btstRegAbs _ _ | btstImmAbs _ _ | biorAbs _ _ | borAbs _ _ | bixorAbs _ _ | bxorAbs _ _ | biandAbs _ _ | bandAbs _ _
  | bildAbs _ _ | bldAbs _ _ =>
    exact decode_of_decodeLong rfl (by simp [decodeLong, decodeBitReadAbs]) rest
  | bsetRegInd _ _ | bnotRegInd _ _ | bclrRegInd _ _ | bistInd _ _ | bstInd _ _ | bsetImmInd _ _ | bnotImmInd _ _
  | bclrImmInd _ _ =>
    exact decode_of_decodeLong rfl (by simp [decodeLong, decodeBitWriteInd]) rest
  | bsetRegAbs _ _ | bnotRegAbs _ _ | bclrRegAbs _ _ | bistAbs _ _ | bstAbs _ _ | bsetImmAbs _ _ | bnotImmAbs _ _
  | bclrImmAbs _ _ =>
    exact decode_of_decodeLong rfl (by simp [decodeLong, decodeBitWriteAbs]) rest

end Sys2Proof
end

section
/-! What every instruction keeps (R28, R32, R35, R330) and, from it, the invariant of a run: each shared operation and
each shared ending of the instruction families once, then the instructions as uses of them. -/

namespace Sys2Proof.Machine

/-! ### The part of the state that instructions keep -/

/-- From `s` to `t` the chip, the coming boundaries and the hold-off are the same and memory stays canonical. -/
structure State.KeepsFrame (s t : State) : Prop where
  chip : t.chip = s.chip
  inputs : t.inputs = s.inputs
  holdOff : t.holdOff = s.holdOff
  memory : Memory.wf s.mem = true → Memory.wf t.mem = true

/-- As `KeepsFrame`, and the operation state, the mask bit I and the user bits are the same (R32, R35). -/
structure State.KeepsMask (s t : State) : Prop extends s.KeepsFrame t where
  mode : t.mode = s.mode
  i : CCR.i t.ccr = CCR.i s.ccr
  u6 : CCR.u6 t.ccr = CCR.u6 s.ccr
  u4 : CCR.u4 t.ccr = CCR.u4 s.ccr

theorem State.KeepsMask.refl (s : State) : s.KeepsMask s := ⟨⟨rfl, rfl, rfl, id⟩, rfl, rfl, rfl, rfl⟩

theorem State.KeepsMask.trans {s t u : State} (h : s.KeepsMask t) (k : t.KeepsMask u) : s.KeepsMask u :=
  ⟨⟨k.chip.trans h.chip, k.inputs.trans h.inputs, k.holdOff.trans h.holdOff, k.memory ∘ h.memory⟩,
    k.mode.trans h.mode, k.i.trans h.i, k.u6.trans h.u6, k.u4.trans h.u4⟩

/-! ### The operations -/

theorem keepsMask_setReg (s : State) (n : Reg16) (v : Word) : s.KeepsMask (s.setReg n v) :=
  ⟨⟨rfl, rfl, rfl, id⟩, rfl, rfl, rfl, rfl⟩

theorem keepsMask_setRegB (s : State) (r : Reg8) (v : Byte) : s.KeepsMask (s.setRegB r v) := by
  cases r <;> exact keepsMask_setReg s _ _

theorem keepsMask_setPc (s : State) (t : Word) : s.KeepsMask (s.setPc t) := ⟨⟨rfl, rfl, rfl, id⟩, rfl, rfl, rfl, rfl⟩

theorem keepsMask_draw (s : State) (w : Nat) : s.KeepsMask (s.draw w).2 := ⟨⟨rfl, rfl, rfl, id⟩, rfl, rfl, rfl, rfl⟩

/-- Writing CCR keeps I and the user bits just when the byte written does. -/
theorem keepsMask_setCcr {s : State} {c : Byte} (hi : CCR.i c = CCR.i s.ccr) (hu6 : CCR.u6 c = CCR.u6 s.ccr)
    (hu4 : CCR.u4 c = CCR.u4 s.ccr) : s.KeepsMask (s.setCcr c) := ⟨⟨rfl, rfl, rfl, id⟩, rfl, hi, hu6, hu4⟩

theorem keepsMask_loadByte (s : State) (a : Word) : s.KeepsMask (s.loadByte a).2 := by
  obtain ⟨d, e, k, h⟩ := loadByte_snd s a
  rw [h]
  exact ⟨⟨rfl, rfl, rfl, id⟩, rfl, rfl, rfl, rfl⟩

theorem keepsMask_putByte (s : State) (a : Word) (v : Byte) : s.KeepsMask (s.putByte a v) :=
  ⟨⟨by simp, by simp, by simp, putByte_wf s a v⟩, by simp, by simp, by simp, by simp⟩

theorem keepsMask_loadWord {s s1 : State} {a v : Word} (h : s.loadWord a = .ok (v, s1)) : s.KeepsMask s1 := by
  obtain ⟨_, d, e, k, rfl⟩ := loadWord_cases h
  exact ⟨⟨rfl, rfl, rfl, id⟩, rfl, rfl, rfl, rfl⟩

theorem keepsMask_storeByte {s s1 : State} {g : Option Word} {a : Word} {v : Byte} (h : s.storeByte g a v = .ok s1) :
    s.KeepsMask s1 := by
  obtain ⟨_, rfl⟩ := storeByte_cases h
  exact keepsMask_putByte s a v

theorem keepsMask_storeWord {s s1 : State} {g : Option Word} {a v : Word} (h : s.storeWord g a v = .ok s1) :
    s.KeepsMask s1 := by
  obtain ⟨_, _, _, rfl⟩ := storeWord_cases h
  exact (keepsMask_putByte _ _ _).trans (keepsMask_putByte _ _ _)

theorem keepsMask_push16 {s s1 : State} {g : Option Word} {v : Word} (h : s.push16 g v = .ok s1) : s.KeepsMask s1 :=
  (keepsMask_setReg s .r7 _).trans (keepsMask_storeWord h)

theorem keepsMask_pop16 {s s1 : State} {v : Word} (h : s.pop16 = .ok (v, s1)) : s.KeepsMask s1 := by
  obtain ⟨_, d, e, k, rfl⟩ := pop16_cases h
  exact ⟨⟨rfl, rfl, rfl, id⟩, rfl, rfl, rfl, rfl⟩

/-! ### The shared endings -/

/-- If the instruction goes on, I, the user bits, the operation state and the frame are kept and bit 0 of PC is 0. -/
def State.EndsKeeping (s : State) (o : Host.Outcome State Fault Refusal) : Prop :=
  ∀ t, o = .next t → s.KeepsMask t ∧ t.pc.getLsbD 0 = false

theorem pcEven_setPc (s : State) (t : Word) : (s.setPc t).pc.getLsbD 0 = false := by simp

/-- Every ending writes PC last (R28, R29). -/
theorem endsKeeping_setPc {s u : State} (h : s.KeepsMask u) (target : Word) : s.EndsKeeping (.next (u.setPc target)) := by
  rintro t ht
  cases ht
  exact ⟨h.trans (keepsMask_setPc u target), pcEven_setPc u target⟩

theorem endsKeeping_advance {s u : State} (h : s.KeepsMask u) (len : Word) : s.EndsKeeping (.next (u.advance len)) :=
  endsKeeping_setPc h (u.nextPc len)

theorem endsKeeping_refused (s : State) (r : Refusal) : s.EndsKeeping (.refused r) := nofun

/-- CCR written with bits that keep I and the user bits, then the next instruction. -/
theorem endsKeeping_flags {s u : State} {c : Byte} (h : s.KeepsMask u) (hi : CCR.i c = CCR.i s.ccr)
    (hu6 : CCR.u6 c = CCR.u6 s.ccr) (hu4 : CCR.u4 c = CCR.u4 s.ccr) (len : Word) :
    s.EndsKeeping (.next ((u.setCcr c).advance len)) :=
  endsKeeping_advance (h.trans (keepsMask_setCcr (hi.trans h.i.symm) (hu6.trans h.u6.symm) (hu4.trans h.u4.symm))) len

theorem endsKeeping_moved {s u : State} {w : Nat} (h : s.KeepsMask u) (v : BitVec w) (len : Word) :
    s.EndsKeeping (.next ((u.setCcr (CCR.moved u.ccr v)).advance len)) :=
  endsKeeping_flags h (by simp [h.i]) (by simp [h.u6]) (by simp [h.u4]) len

theorem endsKeeping_moveToRegB {s u : State} (h : s.KeepsMask u) (len : Word) (v : Byte) (rd : Reg8) :
    s.EndsKeeping (.next (u.moveToRegB len v rd)) :=
  endsKeeping_flags (h.trans (keepsMask_setRegB u rd v)) (by simp [h.i]) (by simp [h.u6]) (by simp [h.u4]) len

theorem endsKeeping_moveToReg {s u : State} (h : s.KeepsMask u) (len v : Word) (rd : Reg16) :
    s.EndsKeeping (.next (u.moveToReg len v rd)) :=
  endsKeeping_flags (h.trans (keepsMask_setReg u rd v)) (by simp [h.i]) (by simp [h.u6]) (by simp [h.u4]) len

theorem endsKeeping_loadMovB (s : State) (len ea : Word) (rd : Reg8) : s.EndsKeeping (loadMovB s len ea rd) :=
  endsKeeping_moveToRegB (keepsMask_loadByte s ea) len _ rd

theorem endsKeeping_loadMovW (s : State) (len ea : Word) (rd : Reg16) : s.EndsKeeping (loadMovW s len ea rd) := by
  unfold loadMovW
  split
  next hload => exact endsKeeping_moveToReg (keepsMask_loadWord hload) len _ rd
  next => exact endsKeeping_refused s _

/-- The store may follow a decrement of the address register. -/
theorem endsKeeping_storeMovB {s u : State} (h : s.KeepsMask u) (len ea : Word) (v : Byte) :
    s.EndsKeeping (storeMovB u len ea v) := by
  unfold storeMovB
  split
  next hstore => exact endsKeeping_moved (h.trans (keepsMask_storeByte hstore)) v len
  next => exact endsKeeping_refused s _

theorem endsKeeping_storeMovW {s u : State} (h : s.KeepsMask u) (len ea v : Word) :
    s.EndsKeeping (storeMovW u len ea v) := by
  unfold storeMovW
  split
  next hstore => exact endsKeeping_moved (h.trans (keepsMask_storeWord hstore)) v len
  next => exact endsKeeping_refused s _

theorem endsKeeping_movBPostInc (s : State) (rm : Reg16) (rd : Reg8) : s.EndsKeeping (execMovBPostInc rm rd s) := by
  unfold execMovBPostInc
  split_ifs
  · exact endsKeeping_refused s _
  · exact endsKeeping_refused s _
  · exact endsKeeping_moveToRegB ((keepsMask_loadByte s _).trans (keepsMask_setReg _ rm _)) 2 _ rd

theorem endsKeeping_movWPostInc (s : State) (rm rd : Reg16) : s.EndsKeeping (execMovWPostInc rm rd s) := by
  unfold execMovWPostInc
  split_ifs
  · exact endsKeeping_refused s _
  · split
    next hload => exact endsKeeping_moveToReg ((keepsMask_loadWord hload).trans (keepsMask_setReg _ rm _)) 2 _ rd
    next => exact endsKeeping_refused s _

theorem endsKeeping_pop (s : State) (rd : Reg16) : s.EndsKeeping (execPop rd s) := by
  unfold execPop
  split_ifs
  · exact endsKeeping_refused s _
  · split
    next hpop => exact endsKeeping_moveToReg (keepsMask_pop16 hpop) 2 _ rd
    next => exact endsKeeping_refused s _

theorem endsKeeping_movBPreDec (s : State) (rs : Reg8) (rm : Reg16) : s.EndsKeeping (execMovBPreDec rs rm s) := by
  unfold execMovBPreDec
  split_ifs
  · exact endsKeeping_refused s _
  · exact endsKeeping_storeMovB (keepsMask_setReg s rm _) 2 _ _

theorem endsKeeping_arithB (s : State) (x : Alu 8) (rd : Reg8) : s.EndsKeeping (.next (s.arithB x rd)) :=
  endsKeeping_flags (keepsMask_setRegB s rd x.value) (by simp) (by simp) (by simp) 2

theorem endsKeeping_arithW (s : State) (x : Alu 16) (rd : Reg16) : s.EndsKeeping (.next (s.arithW x rd)) :=
  endsKeeping_flags (keepsMask_setReg s rd x.value) (by simp) (by simp) (by simp) 2

theorem endsKeeping_extendB (s : State) (x : Alu 8) (rd : Reg8) : s.EndsKeeping (.next (s.extendB x rd)) :=
  endsKeeping_flags (keepsMask_setRegB s rd x.value) (by simp) (by simp) (by simp) 2

theorem endsKeeping_compare {w : Nat} (s : State) (x : Alu w) : s.EndsKeeping (.next (s.compare x)) :=
  endsKeeping_flags (.refl s) (by simp) (by simp) (by simp) 2

theorem endsKeeping_countB (s : State) (r : Byte) (v : Bool) (rd : Reg8) : s.EndsKeeping (.next (s.countB r v rd)) :=
  endsKeeping_flags (keepsMask_setRegB s rd r) (by simp) (by simp) (by simp) 2

theorem endsKeeping_adjustW (s : State) (r : Word) (rd : Reg16) : s.EndsKeeping (.next (s.adjustW r rd)) :=
  endsKeeping_advance (keepsMask_setReg s rd r) 2

/-- The decimal result may follow draws of free values. -/
theorem endsKeeping_decimalB {s u : State} (h : s.KeepsMask u) (r : Byte) (c : Bool) (rd : Reg8) :
    s.EndsKeeping (.next (u.decimalB r c rd)) :=
  have hdrawn := (h.trans (keepsMask_draw u 1)).trans (keepsMask_draw (u.draw 1).2 1)
  endsKeeping_flags (hdrawn.trans (keepsMask_setRegB _ rd r)) (by simp [h.i]) (by simp [h.u6]) (by simp [h.u4]) 2

theorem endsKeeping_daa (s : State) (rd : Reg8) : s.EndsKeeping (execDaa rd s) := by
  unfold execDaa
  split
  · exact endsKeeping_decimalB (.refl s) _ _ rd
  · exact endsKeeping_decimalB ((keepsMask_draw s 8).trans (keepsMask_draw _ 1)) _ _ rd

theorem endsKeeping_das (s : State) (rd : Reg8) : s.EndsKeeping (execDas rd s) := by
  unfold execDas
  split
  · exact endsKeeping_decimalB (.refl s) _ _ rd
  · exact endsKeeping_decimalB (keepsMask_draw s 8) _ _ rd

theorem keepsMask_divide (s : State) (n : Word) (v : Byte) : s.KeepsMask (s.divide n v).2 := by
  unfold State.divide
  split_ifs
  · exact .refl s
  · exact keepsMask_draw s 16

theorem endsKeeping_divxu (s : State) (rs : Reg8) (rd : Reg16) : s.EndsKeeping (execDivxu rs rd s) :=
  endsKeeping_flags ((keepsMask_divide s _ _).trans (keepsMask_setReg _ rd _)) (by simp) (by simp) (by simp) 2

theorem endsKeeping_logicB (s : State) (r : Byte) (rd : Reg8) : s.EndsKeeping (.next (s.logicB r rd)) :=
  endsKeeping_flags (keepsMask_setRegB s rd r) (by simp) (by simp) (by simp) 2

theorem endsKeeping_shiftB (s : State) (x : Shifted) (rd : Reg8) : s.EndsKeeping (.next (s.shiftB x rd)) :=
  endsKeeping_flags (keepsMask_setRegB s rd x.value) (by simp) (by simp) (by simp) 2

theorem keepsMask_readPlace (s : State) (p : BytePlace) : s.KeepsMask (s.readPlace p).2 := by
  cases p with
  | reg r => exact .refl s
  | mem ea => exact keepsMask_loadByte s ea

theorem keepsMask_writePlace {s s1 : State} {next : Word} {p : BytePlace} {v : Byte}
    (h : s.writePlace next p v = .ok s1) : s.KeepsMask s1 := by
  cases p with
  | reg r => cases h; exact keepsMask_setRegB s r v
  | mem ea => exact keepsMask_storeByte h

theorem endsKeeping_modifyBit (s : State) (len : Word) (p : BytePlace) (f : Byte → Byte) :
    s.EndsKeeping (modifyBit s len p f) := by
  unfold modifyBit
  dsimp only
  split
  next hwrite => exact endsKeeping_advance ((keepsMask_readPlace s p).trans (keepsMask_writePlace hwrite)) len
  next => exact endsKeeping_refused s _

/-- The operation on CCR is one of those that write Z or C alone. -/
theorem endsKeeping_testBit (s : State) (len : Word) (p : BytePlace) {f : Byte → Byte → Byte}
    (hf : ∀ v c, CCR.i (f v c) = CCR.i c ∧ CCR.u6 (f v c) = CCR.u6 c ∧ CCR.u4 (f v c) = CCR.u4 c) :
    s.EndsKeeping (testBit s len p f) := by
  have hread := keepsMask_readPlace s p
  obtain ⟨hi, hu6, hu4⟩ := hf (s.readPlace p).1 (s.readPlace p).2.ccr
  exact endsKeeping_flags hread (hi.trans hread.i) (hu6.trans hread.u6) (hu4.trans hread.u4) len

theorem endsKeeping_testZ (s : State) (len : Word) (p : BytePlace) (bn : BitVec 3) :
    s.EndsKeeping (testBit s len p (zeroFromBit bn)) :=
  endsKeeping_testBit s len p fun _ _ => ⟨i_setZ .., u6_setZ .., u4_setZ ..⟩

theorem endsKeeping_testC (s : State) (len : Word) (p : BytePlace) {f : Byte → Byte → Byte}
    (hf : ∀ v c, ∃ b, f v c = CCR.setC c b) : s.EndsKeeping (testBit s len p f) :=
  endsKeeping_testBit s len p fun v c => by
    obtain ⟨b, hb⟩ := hf v c
    exact hb ▸ ⟨i_setC c b, u6_setC c b, u4_setC c b⟩

theorem endsKeeping_branchIf (s : State) (cond : Bool) (disp : Byte) : s.EndsKeeping (.next (s.branchIf cond disp)) := by
  cases cond <;> exact endsKeeping_setPc (.refl s) _

theorem endsKeeping_callTo {s u : State} (h : s.KeepsMask u) (len t : Word) : s.EndsKeeping (u.callTo len t) := by
  unfold State.callTo
  split
  next hpush => exact endsKeeping_setPc (h.trans (keepsMask_push16 hpush)) t
  next => exact endsKeeping_refused s _

theorem endsKeeping_jmpMemInd (s : State) (aa : Byte) : s.EndsKeeping (execJmpMemInd aa s) := by
  unfold execJmpMemInd
  split
  next hload => exact endsKeeping_setPc (keepsMask_loadWord hload) _
  next => exact endsKeeping_refused s _

theorem endsKeeping_jsrMemInd (s : State) (aa : Byte) : s.EndsKeeping (execJsrMemInd aa s) := by
  unfold execJsrMemInd
  split
  next hload => exact endsKeeping_callTo (keepsMask_loadWord hload) 2 _
  next => exact endsKeeping_refused s _

theorem endsKeeping_rts (s : State) : s.EndsKeeping (execRts s) := by
  unfold execRts
  split
  next hpop => exact endsKeeping_setPc (keepsMask_pop16 hpop) _
  next => exact endsKeeping_refused s _

theorem keepsMask_copyByte {s s1 : State} {next : Word} (h : s.copyByte next = .ok s1) : s.KeepsMask s1 := by
  unfold State.copyByte at h
  dsimp only at h
  split at h
  next s2 hstore =>
    cases h
    exact ((((keepsMask_loadByte s _).trans (keepsMask_storeByte hstore)).trans (keepsMask_setReg s2 .r5 _)).trans
      (keepsMask_setReg _ .r6 _)).trans (keepsMask_setRegB _ _ _)
  next => cases h

theorem keepsMask_copyBlock {next : Word} {k : Nat} {s s1 : State} (h : copyBlock next k s = .ok s1) :
    s.KeepsMask s1 := by
  induction k generalizing s with
  | zero => cases h; exact .refl _
  | succ k ih =>
    unfold copyBlock at h
    split at h
    next s2 hcopy => exact (keepsMask_copyByte hcopy).trans (ih h)
    next => cases h

theorem endsKeeping_eepmov (s : State) : s.EndsKeeping (execEepmov s) := by
  unfold execEepmov
  split
  next hcopy => exact endsKeeping_advance (keepsMask_copyBlock hcopy) 4
  next => exact endsKeeping_refused s _

/-! ### The instructions -/

/-- Neither SLEEP, which leaves the operation state, nor one of the instructions that load the whole of CCR. -/
def LeavesMaskBits (i : Instr) : Prop :=
  match i with
  | .sleep | .ldcImm _ | .ldcReg _ | .andc _ | .orc _ | .xorc _ | .rte => False
  | _ => True

theorem endsKeeping_exec {i : Instr} (hi : LeavesMaskBits i) (s : State) : s.EndsKeeping (exec i s) := by
  unfold exec
  cases i with
  | sleep | ldcImm _ | ldcReg _ | andc _ | orc _ | xorc _ | rte => exact hi.elim
  -- data transfer
  | movBReg _ _ | movBImm _ _ => exact endsKeeping_moveToRegB (.refl s) _ _ _
  | movBInd _ _ | movBDisp _ _ _ | movBAbs8 _ _ | movBAbs16 _ _ => exact endsKeeping_loadMovB s _ _ _
  | movBPostInc rm rd => exact endsKeeping_movBPostInc s rm rd
  | movBToInd _ _ | movBToDisp _ _ _ | movBToAbs8 _ _ | movBToAbs16 _ _ => exact endsKeeping_storeMovB (.refl s) _ _ _
  | movBPreDec rs rm => exact endsKeeping_movBPreDec s rs rm
  | movWReg _ _ | movWImm _ _ => exact endsKeeping_moveToReg (.refl s) _ _ _
  | movWInd _ _ | movWDisp _ _ _ | movWAbs16 _ _ => exact endsKeeping_loadMovW s _ _ _
  | movWPostInc rm rd => exact endsKeeping_movWPostInc s rm rd
  | movWToInd _ _ | movWToDisp _ _ _ | movWToAbs16 _ _ => exact endsKeeping_storeMovW (.refl s) _ _ _
  | movWPreDec _ _ | push _ => exact endsKeeping_storeMovW (keepsMask_setReg s _ _) _ _ _
  | pop rd => exact endsKeeping_pop s rd
  -- arithmetic
  | addBImm _ _ | addBReg _ _ | subB _ _ | neg _ => exact endsKeeping_arithB s _ _
  | addW _ _ | subW _ _ => exact endsKeeping_arithW s _ _
  | addxImm _ _ | addxReg _ _ | subxImm _ _ | subxReg _ _ => exact endsKeeping_extendB s _ _
  | inc _ | dec _ => exact endsKeeping_countB s _ _ _
  | adds1 _ | adds2 _ | subs1 _ | subs2 _ | mulxu _ _ => exact endsKeeping_adjustW s _ _
  | cmpBImm _ _ | cmpBReg _ _ | cmpW _ _ => exact endsKeeping_compare s _
  | daa rd => exact endsKeeping_daa s rd
  | das rd => exact endsKeeping_das s rd
  | divxu rs rd => exact endsKeeping_divxu s rs rd
  -- logic and shifts
  | andImm _ _ | andReg _ _ | orImm _ _ | orReg _ _ | xorImm _ _ | xorReg _ _ | notB _ => exact endsKeeping_logicB s _ _
  | shal _ | shar _ | shll _ | shlr _ | rotl _ | rotr _ | rotxl _ | rotxr _ => exact endsKeeping_shiftB s _ _
  -- bit manipulation
  | bsetImmReg _ _ | bsetImmInd _ _ | bsetImmAbs _ _ | bsetRegReg _ _ | bsetRegInd _ _ | bsetRegAbs _ _
  | bclrImmReg _ _ | bclrImmInd _ _ | bclrImmAbs _ _ | bclrRegReg _ _ | bclrRegInd _ _ | bclrRegAbs _ _
  | bnotImmReg _ _ | bnotImmInd _ _ | bnotImmAbs _ _ | bnotRegReg _ _ | bnotRegInd _ _ | bnotRegAbs _ _
  | bstReg _ _ | bstInd _ _ | bstAbs _ _ | bistReg _ _ | bistInd _ _ | bistAbs _ _ =>
    exact endsKeeping_modifyBit s _ _ _
  | btstImmReg _ _ | btstImmInd _ _ | btstImmAbs _ _ | btstRegReg _ _ | btstRegInd _ _ | btstRegAbs _ _ =>
    exact endsKeeping_testZ s _ _ _
  | bandReg _ _ | bandInd _ _ | bandAbs _ _ | biandReg _ _ | biandInd _ _ | biandAbs _ _ | borReg _ _ | borInd _ _
  | borAbs _ _ | biorReg _ _ | biorInd _ _ | biorAbs _ _ | bxorReg _ _ | bxorInd _ _ | bxorAbs _ _ | bixorReg _ _
  | bixorInd _ _ | bixorAbs _ _ | bldReg _ _ | bldInd _ _ | bldAbs _ _ | bildReg _ _ | bildInd _ _ | bildAbs _ _ =>
    exact endsKeeping_testC s _ _ fun _ _ => ⟨_, rfl⟩
  -- branching
  | bra _ | brn _ | bhi _ | bls _ | bcc _ | bcs _ | bne _ | beq _ | bvc _ | bvs _ | bpl _ | bmi _ | bge _ | blt _
  | bgt _ | ble _ => exact endsKeeping_branchIf s _ _
  | jmpInd _ | jmpAbs _ => exact endsKeeping_setPc (.refl s) _
  | jmpMemInd aa => exact endsKeeping_jmpMemInd s aa
  | bsr _ | jsrInd _ | jsrAbs _ => exact endsKeeping_callTo (.refl s) _ _
  | jsrMemInd aa => exact endsKeeping_jsrMemInd s aa
  | rts => exact endsKeeping_rts s
  -- system control and block transfer
  | stc rd => exact endsKeeping_advance (keepsMask_setRegB s rd s.ccr) 2
  | nop => exact endsKeeping_advance (.refl s) 2
  | eepmov => exact endsKeeping_eepmov s

/-- LDC, ANDC, ORC and XORC keep everything but CCR, RTE everything but CCR and what it pops. -/
theorem keepsFrame_returnFromException {s t : State} (h : s.returnFromException = .ok t) :
    s.KeepsFrame t ∧ t.mode = s.mode ∧ t.pc.getLsbD 0 = false := by
  obtain ⟨r, d, e, k, c, target, rfl⟩ := returnFromException_cases h
  exact ⟨⟨rfl, rfl, rfl, id⟩, rfl, by simp⟩

/-- What every instruction keeps (R28, R32, R330). -/
theorem exec_keepsFrame {i : Instr} {s t : State} (h : exec i s = .next t) :
    s.KeepsFrame t ∧ (i ≠ .sleep → t.mode = s.mode) ∧ t.pc.getLsbD 0 = false := by
  by_cases hi : LeavesMaskBits i
  · obtain ⟨hkeeps, heven⟩ := endsKeeping_exec hi s t h
    exact ⟨hkeeps.toKeepsFrame, fun _ => hkeeps.mode, heven⟩
  · cases i with
    | sleep =>
      cases h
      exact ⟨⟨rfl, rfl, rfl, id⟩, fun hne => absurd rfl hne, pcEven_setPc s _⟩
    | ldcImm _ | ldcReg _ | andc _ | orc _ | xorc _ =>
      cases h
      exact ⟨⟨rfl, rfl, rfl, id⟩, fun _ => rfl, pcEven_setPc _ _⟩
    | rte =>
      obtain ⟨hframe, hmode, heven⟩ := keepsFrame_returnFromException (outcome_next h)
      exact ⟨hframe, fun _ => hmode, heven⟩
    | _ => exact absurd trivial hi

/-- Settles O60: I and the user bits by the instructions that keep them, the rest by all. -/
theorem whatInstructionsKeep : Obligations.WhatInstructionsKeep := by
  intro i s t h
  obtain ⟨hframe, hmode, heven⟩ := exec_keepsFrame h
  refine ⟨hframe.chip, hframe.inputs, hframe.holdOff, heven, hmode, fun hldc himm hrte => ?_⟩
  by_cases hi : LeavesMaskBits i
  · obtain ⟨hkeeps, _⟩ := endsKeeping_exec hi s t h
    exact ⟨hkeeps.i, hkeeps.u6, hkeeps.u4⟩
  · cases i with
    | sleep => cases h; exact ⟨rfl, rfl, rfl⟩
    | ldcReg r => exact absurd rfl (hldc r)
    | ldcImm imm => exact absurd rfl (himm imm).1
    | andc imm => exact absurd rfl (himm imm).2.1
    | orc imm => exact absurd rfl (himm imm).2.2.1
    | xorc imm => exact absurd rfl (himm imm).2.2.2
    | rte => exact absurd rfl hrte
    | _ => exact absurd trivial hi

/-! ### The invariant of a run -/

/-- The fetch looks at memory, the devices and the boundary's environment, and changes no more than a read does. -/
theorem keepsMask_fetch {s s1 : State} {bytes : List Byte} (h : s.fetch = .ok (bytes, s1)) : s.KeepsMask s1 := by
  unfold State.fetch at h
  split at h
  next w0 s2 hfirst =>
    split at h
    next =>
      split at h
      next w1 s3 hsecond => cases h; exact (keepsMask_loadWord hfirst).trans (keepsMask_loadWord hsecond)
      next => cases h
    next => cases h; exact keepsMask_loadWord hfirst
  next => cases h

/-- All that running one instruction can do to what the invariant looks at; the hold-off ends with it (R337). -/
theorem runInstruction_cases {s t : State} (h : s.runInstruction = .next t) :
    t.chip = s.chip ∧ t.holdOff = false ∧ t.pc.getLsbD 0 = false ∧ (Memory.wf s.mem = true → Memory.wf t.mem = true) := by
  unfold State.runInstruction at h
  split at h
  next bytes s1 hfetch =>
    split at h
    next i _ _ =>
      have hf := keepsMask_fetch hfetch
      obtain ⟨hframe, _, heven⟩ := exec_keepsFrame h
      exact ⟨hframe.chip.trans hf.chip, hframe.holdOff.trans hf.holdOff, heven, hframe.memory ∘ hf.memory⟩
    next => cases h
  next => cases h

theorem inv_takeReset {s t : State} (hs : s.Inv) (h : s.pastBoundary.takeReset = .ok t) : t.Inv := by
  obtain ⟨hmem, hchip, _, hmode, _, heven, _⟩ := takeReset_cases h
  exact ⟨by rw [hmem]; exact hs.memory, heven, fun _ => hmode, by rw [hchip]; exact hs.chipOk⟩

theorem inv_takeInterrupt {s t : State} {src : IntSource} (hs : s.Inv) (h : s.pastBoundary.takeInterrupt src = .ok t) :
    t.Inv := by
  obtain ⟨r, m, d, e, k, target, rfl, hwf⟩ := takeInterrupt_cases h
  exact ⟨hwf hs.memory, by simp, fun _ => rfl, hs.chipOk⟩

theorem inv_runInstruction {s t : State} (hs : s.Inv) (h : s.pastBoundary.runInstruction = .next t) : t.Inv := by
  obtain ⟨hchip, hoff, heven, hwf⟩ := runInstruction_cases h
  exact ⟨hwf hs.memory, heven, fun hon => absurd hon (by simp [hoff]), by rw [hchip]; exact hs.chipOk⟩

/-- Settles O58, by what the boundary asks and the operation state. -/
theorem invariantKeptByStep : Obligations.InvariantKeptByStep := by
  intro s t hs h
  unfold step cycle at h
  split at h
  case h_1 => cases h; exact ⟨hs.memory, hs.pcEven, nofun, hs.chipOk⟩
  case h_2 => exact inv_takeReset hs (outcome_next h)
  case h_3 =>
    split at h
    case h_1 => exact inv_takeReset hs (outcome_next h)
    case h_2 =>
      unfold sleepOrInterrupt at h
      split at h
      next => exact inv_takeInterrupt hs (outcome_next h)
      next => cases h; exact ⟨hs.memory, hs.pcEven, hs.holdOffRuns, hs.chipOk⟩
    case h_3 =>
      unfold runOrInterrupt at h
      split at h
      next => exact inv_takeInterrupt hs (outcome_next h)
      next => exact inv_runInstruction hs h

/-- Settles O59: each part evaluates. -/
theorem invariantAtReset : Obligations.InvariantAtReset := ⟨reset_mem_wf, rfl, fun _ => rfl, rfl⟩

/-- Settles O56: the fields of `State.reset` as written. -/
theorem stateAfterReset : Obligations.StateAfterReset := ⟨rfl, rfl, rfl, rfl, rfl⟩

end Sys2Proof.Machine
end

section
/-! Memory as instructions access it: bytes and words read and written (R55 to R58, R61, R64), the prefetched instruction
(R71) and the stack (R62), each operation once where it answers and once where it is refused. -/

namespace Sys2Proof.Machine

/-! ### Bytes (R55, R56, R64) -/

/-- Settles O10: one clause for each kind of address. -/
theorem byteReads : Obligations.ByteReads := fun s a =>
  ⟨loadByte_storage s a, fun hkind v rest hlist => by simp [State.loadByte, hkind, State.readDevice, hlist],
    fun hkind hlist => by simp [State.loadByte, hkind, State.readDevice, hlist, State.draw],
    fun hkind => by simp [State.loadByte, hkind, State.draw]⟩

theorem putByte_device (s : State) (a : Word) (v : Byte) (h : s.chip.kindAt a = .device) :
    s.putByte a v = { s with envLog := .deviceWrite a v :: s.envLog } := by
  simp [State.putByte, h]

theorem putByte_dropped (s : State) (a : Word) (v : Byte) (h : s.chip.kindAt a = .rom ∨ s.chip.kindAt a = .unmapped) :
    s.putByte a v = s := by
  rcases h with h | h <;> simp [State.putByte, h]

theorem putByte_ram_peek (s : State) (a : Word) (v : Byte) (h : s.chip.kindAt a = .ram) : (s.putByte a v).peek a = v := by
  rw [putByte_ram s a v h, peek_poke_same]

/-- Only RAM stores. -/
theorem putByte_peek_of_ne_ram (s : State) (a : Word) (v : Byte) (h : s.chip.kindAt a ≠ .ram) (x : Word) :
    (s.putByte a v).peek x = s.peek x := by
  unfold State.putByte
  cases hkind : s.chip.kindAt a with
  | ram => exact absurd hkind h
  | rom | device | unmapped => rfl

/-- Settles O9: one clause for each kind of address, and what no write changes. -/
theorem byteWrites : Obligations.ByteWrites := by
  intro s a v
  have stored (hkind : s.chip.kindAt a = .ram) : (s.putByte a v).loadByte a = (v, s.putByte a v) := by
    rw [loadByte_storage _ a (by simp [hkind]), putByte_ram_peek s a v hkind]
  have quiet (hkind : s.chip.kindAt a = .ram) : s.KeepsEnv (s.putByte a v) := by
    rw [putByte_ram s a v hkind]
    exact ⟨rfl, rfl, rfl⟩
  exact ⟨fun x hx => putByte_peek_ne s v hx,
    fun hkind => ⟨putByte_ram_peek s a v hkind, stored hkind, quiet hkind⟩,
    putByte_device s a v, putByte_dropped s a v, putByte_wf s a v, fun r _ => putByte_regB s a v r,
    ⟨putByte_mode s a v, putByte_holdOff s a v, putByte_chip s a v, putByte_inputs s a v⟩,
    putByte_pc s a v, putByte_ccr s a v⟩

/-- A byte write carries the byte of its address, of whatever kind, and leaves the others. -/
theorem storedByte_of_putByte {e t : State} {a : Word} {v : Byte} (hmem : t.mem = (e.putByte a v).mem)
    (henv : (e.putByte a v).KeepsEnv t) : e.StoredByte t a v := by
  have hpeek (x : Word) : t.peek x = (e.putByte a v).peek x := peek_of_mem hmem x
  exact ⟨fun x hx => (hpeek x).trans (putByte_peek_ne e v hx), fun hram => (hpeek a).trans (putByte_ram_peek e a v hram),
    fun hother => (hpeek a).trans (putByte_peek_of_ne_ram e a v hother a), henv⟩

/-! ### Even addresses (R57) -/

/-- An address is its even address and bit 0. -/
theorem evenAddr_add (a : Word) : evenAddr a + (a &&& 1#16) = a := by
  have disjoint : (a &&& 0xFFFE#16) &&& (a &&& 1#16) = 0#16 := by
    rw [BitVec.and_comm a 1#16, ← BitVec.and_assoc, BitVec.and_assoc a]
    simp
  rw [evenAddr, BitVec.add_eq_or_of_and_eq_zero _ _ disjoint, ← BitVec.and_or_distrib_left]
  exact BitVec.and_allOnes

theorem toNat_evenAddr (a : Word) : (evenAddr a).toNat = a.toNat - a.toNat % 2 := by
  have bit0 : (a &&& 1#16).toNat = a.toNat % 2 := by rw [BitVec.toNat_and]; exact Nat.and_one_is_mod _
  have hsum := congrArg BitVec.toNat (evenAddr_add a)
  rw [BitVec.toNat_add, bit0] at hsum
  have := a.isLt
  have := (evenAddr a).isLt
  omega

@[simp] theorem evenAddr_evenAddr (a : Word) : evenAddr (evenAddr a) = evenAddr a := by
  rw [evenAddr, evenAddr, BitVec.and_assoc, BitVec.and_self]

theorem evenAddr_or_one (a : Word) : evenAddr (a ||| 1#16) = evenAddr a := by
  simp [evenAddr, BitVec.and_or_distrib_right]

/-- Bit 0 of an address that is written back with bit 0 dropped was 0. -/
theorem evenAddr_of_even {a : Word} (h : a.getLsbD 0 = false) : evenAddr a = a := by
  apply BitVec.eq_of_toNat_eq
  have : a.toNat % 2 = 0 := by simpa [BitVec.getLsbD, Nat.testBit_zero] using h
  rw [toNat_evenAddr]
  omega

theorem add_one_ne (a : Word) : a + 1#16 ≠ a := by
  intro h
  bv_omega

/-! ### Words (R54, R57, R58, R61) -/

theorem loadWord_eq_twoBytes (s : State) (a : Word) (h : s.chip.wordOk a = true) : s.loadWord a = .ok (s.twoBytes a) :=
  loadWord_ok s a h

/-- The word write without its test: the two byte writes, upper byte first. -/
def State.putTwoBytes (s : State) (a v : Word) : State :=
  (s.putByte (evenAddr a) (hi8 v)).putByte (evenAddr a + 1#16) (lo8 v)

theorem putWord_ok (s : State) (a v : Word) (h : s.chip.wordOk a = true) : s.putWord a v = .ok (s.putTwoBytes a v) :=
  if_pos h

theorem wordOk_congr (c : Chip) {a b : Word} (h : evenAddr a = evenAddr b) : c.wordOk a = c.wordOk b := by
  rw [Chip.wordOk, Chip.wordOk, h]

/-- A word access looks at its address only through the even address. -/
theorem loadWord_congr (s : State) {a b : Word} (h : evenAddr a = evenAddr b) : s.loadWord a = s.loadWord b := by
  rw [State.loadWord, State.loadWord, wordOk_congr s.chip h, h]

theorem putWord_congr (s : State) {a b : Word} (v : Word) (h : evenAddr a = evenAddr b) :
    s.putWord a v = s.putWord b v := by
  rw [State.putWord, State.putWord, wordOk_congr s.chip h, h]

/-- Settles O11: an address with bit 0 set and one with bit 0 cleared have one even address. -/
theorem wordAccesses : Obligations.WordAccesses := fun s a v hw =>
  have same : evenAddr (a ||| 1#16) = evenAddr (evenAddr a) := by rw [evenAddr_or_one, evenAddr_evenAddr]
  ⟨loadWord_eq_twoBytes s a hw, loadWord_congr s same, putWord_ok s a v hw, putWord_congr s v same⟩

/-! #### What a word write leaves -/

@[simp] theorem putTwoBytes_regs (s : State) (a v : Word) : (s.putTwoBytes a v).regs = s.regs := by
  simp [State.putTwoBytes]
@[simp] theorem putTwoBytes_pc (s : State) (a v : Word) : (s.putTwoBytes a v).pc = s.pc := by
  simp [State.putTwoBytes]
@[simp] theorem putTwoBytes_ccr (s : State) (a v : Word) : (s.putTwoBytes a v).ccr = s.ccr := by
  simp [State.putTwoBytes]
@[simp] theorem putTwoBytes_mode (s : State) (a v : Word) : (s.putTwoBytes a v).mode = s.mode := by
  simp [State.putTwoBytes]
@[simp] theorem putTwoBytes_holdOff (s : State) (a v : Word) : (s.putTwoBytes a v).holdOff = s.holdOff := by
  simp [State.putTwoBytes]
@[simp] theorem putTwoBytes_chip (s : State) (a v : Word) : (s.putTwoBytes a v).chip = s.chip := by
  simp [State.putTwoBytes]
@[simp] theorem putTwoBytes_inputs (s : State) (a v : Word) : (s.putTwoBytes a v).inputs = s.inputs := by
  simp [State.putTwoBytes]
@[simp] theorem putTwoBytes_deviceIn (s : State) (a v : Word) : (s.putTwoBytes a v).deviceIn = s.deviceIn := by
  simp [State.putTwoBytes]
@[simp] theorem putTwoBytes_draws (s : State) (a v : Word) : (s.putTwoBytes a v).draws = s.draws := by
  simp [State.putTwoBytes]
@[simp] theorem putTwoBytes_reg (s : State) (a v : Word) (n : Reg16) : (s.putTwoBytes a v).reg n = s.reg n := by
  simp [State.putTwoBytes]
@[simp] theorem putTwoBytes_regB (s : State) (a v : Word) (r : Reg8) : (s.putTwoBytes a v).regB r = s.regB r := by
  simp [State.putTwoBytes]

theorem putTwoBytes_peek_ne (s : State) {a x : Word} (v : Word) (h0 : x ≠ evenAddr a) (h1 : x ≠ evenAddr a + 1#16) :
    (s.putTwoBytes a v).peek x = s.peek x := by
  rw [State.putTwoBytes, putByte_peek_ne _ _ h1, putByte_peek_ne _ _ h0]

/-- The lower byte's write is at another address than the upper byte's. -/
theorem putTwoBytes_peek_upper (s : State) (a v : Word) :
    (s.putTwoBytes a v).peek (evenAddr a) = (s.putByte (evenAddr a) (hi8 v)).peek (evenAddr a) :=
  putByte_peek_ne _ _ (add_one_ne (evenAddr a)).symm

theorem putTwoBytes_peek_lower (s : State) (a v : Word) :
    (s.putTwoBytes a v).peek (evenAddr a + 1#16) = (s.putByte (evenAddr a + 1#16) (lo8 v)).peek (evenAddr a + 1#16) := by
  have hother := putByte_peek_ne s (hi8 v) (add_one_ne (evenAddr a))
  by_cases hram : s.chip.kindAt (evenAddr a + 1#16) = .ram
  · rw [State.putTwoBytes, putByte_ram_peek _ _ _ (by simpa using hram), putByte_ram_peek _ _ _ hram]
  · rw [State.putTwoBytes, putByte_peek_of_ne_ram _ _ _ (by simpa using hram), putByte_peek_of_ne_ram _ _ _ hram, hother]

/-- A word write carries the two bytes of its word, and leaves the others. -/
theorem storedWord_of_putTwoBytes {e t : State} {a v : Word} (hmem : t.mem = (e.putTwoBytes a v).mem)
    (henv : (e.putTwoBytes a v).KeepsEnv t) : e.StoredWord t a v := by
  have hpeek (x : Word) : t.peek x = (e.putTwoBytes a v).peek x := peek_of_mem hmem x
  have upper := (hpeek (evenAddr a)).trans (putTwoBytes_peek_upper e a v)
  have lower := (hpeek (evenAddr a + 1#16)).trans (putTwoBytes_peek_lower e a v)
  exact ⟨fun x h0 h1 => (hpeek x).trans (putTwoBytes_peek_ne e v h0 h1),
    fun hram => upper.trans (putByte_ram_peek e _ _ hram), fun hram => lower.trans (putByte_ram_peek e _ _ hram),
    fun hother => upper.trans (putByte_peek_of_ne_ram e _ _ hother _),
    fun hother => lower.trans (putByte_peek_of_ne_ram e _ _ hother _), henv⟩

/-- A write does not look at the registers and carries them along. -/
theorem putByte_setReg (s : State) (n : Reg16) (w : Word) (a : Word) (v : Byte) :
    (s.setReg n w).putByte a v = (s.putByte a v).setReg n w := by
  unfold State.putByte
  rw [setReg_chip]
  cases s.chip.kindAt a <;> rfl

theorem putTwoBytes_setReg (s : State) (n : Reg16) (w a v : Word) :
    (s.setReg n w).putTwoBytes a v = (s.putTwoBytes a v).setReg n w := by
  rw [State.putTwoBytes, putByte_setReg, putByte_setReg]
  rfl

/-! ### Reads and the rest of the state -/

/-- From `s` to `e` just reads have passed: device answers, the record of events and the count of free values. -/
def State.OnlyReads (s e : State) : Prop := ∃ d l k, e = { s with deviceIn := d, envLog := l, draws := k }

theorem onlyReads_refl (s : State) : s.OnlyReads s := ⟨_, _, _, rfl⟩

theorem State.OnlyReads.trans {s e f : State} (h : s.OnlyReads e) (k : e.OnlyReads f) : s.OnlyReads f := by
  obtain ⟨_, _, _, rfl⟩ := h
  obtain ⟨_, _, _, rfl⟩ := k
  exact ⟨_, _, _, rfl⟩

theorem onlyReads_loadByte (s : State) (a : Word) : s.OnlyReads (s.loadByte a).2 := loadByte_snd s a

theorem onlyReads_twoBytes (s : State) (a : Word) : s.OnlyReads (s.twoBytes a).2 :=
  (onlyReads_loadByte s _).trans (onlyReads_loadByte _ _)

/-- What an instruction leaves as it was may be judged from the state after its reads. -/
theorem State.OnlyReads.keepsAllBut {s e t : State} {regs : List Reg8} {mem : List Word} (h : s.OnlyReads e)
    (k : e.KeepsAllBut t regs mem e) : s.KeepsAllBut t regs mem e := by
  obtain ⟨_, _, _, rfl⟩ := h
  exact k

@[simp] theorem twoBytes_regs (s : State) (a : Word) : (s.twoBytes a).2.regs = s.regs := by simp [State.twoBytes]
@[simp] theorem twoBytes_pc (s : State) (a : Word) : (s.twoBytes a).2.pc = s.pc := by simp [State.twoBytes]
@[simp] theorem twoBytes_ccr (s : State) (a : Word) : (s.twoBytes a).2.ccr = s.ccr := by simp [State.twoBytes]
@[simp] theorem twoBytes_mode (s : State) (a : Word) : (s.twoBytes a).2.mode = s.mode := by simp [State.twoBytes]
@[simp] theorem twoBytes_holdOff (s : State) (a : Word) : (s.twoBytes a).2.holdOff = s.holdOff := by simp [State.twoBytes]
@[simp] theorem twoBytes_mem (s : State) (a : Word) : (s.twoBytes a).2.mem = s.mem := by simp [State.twoBytes]
@[simp] theorem twoBytes_chip (s : State) (a : Word) : (s.twoBytes a).2.chip = s.chip := by simp [State.twoBytes]
@[simp] theorem twoBytes_inputs (s : State) (a : Word) : (s.twoBytes a).2.inputs = s.inputs := by simp [State.twoBytes]
@[simp] theorem twoBytes_reg (s : State) (a : Word) (n : Reg16) : (s.twoBytes a).2.reg n = s.reg n := by
  simp [State.twoBytes]
@[simp] theorem twoBytes_regB (s : State) (a : Word) (r : Reg8) : (s.twoBytes a).2.regB r = s.regB r := by
  simp [State.twoBytes]
@[simp] theorem twoBytes_peek (s : State) (a x : Word) : (s.twoBytes a).2.peek x = s.peek x := by simp [State.twoBytes]

/-- A read does not look at the registers or CCR, and carries them along. -/
theorem loadByte_setReg (s : State) (n : Reg16) (v a : Word) :
    (s.setReg n v).loadByte a = ((s.loadByte a).1, (s.loadByte a).2.setReg n v) := by
  obtain ⟨_, _, _, _, _, _, chip, _, deviceIn, _, _⟩ := s
  unfold State.loadByte State.setReg
  simp only [Chip.kindAt, Chip.regionAt]
  split <;> cases deviceIn <;> rfl

theorem loadByte_setCcr (s : State) (c : Byte) (a : Word) :
    (s.setCcr c).loadByte a = ((s.loadByte a).1, (s.loadByte a).2.setCcr c) := by
  obtain ⟨_, _, _, _, _, _, chip, _, deviceIn, _, _⟩ := s
  unfold State.loadByte State.setCcr
  simp only [Chip.kindAt, Chip.regionAt]
  split <;> cases deviceIn <;> rfl

theorem twoBytes_setReg (s : State) (n : Reg16) (v a : Word) :
    (s.setReg n v).twoBytes a = ((s.twoBytes a).1, (s.twoBytes a).2.setReg n v) := by
  simp only [State.twoBytes, loadByte_setReg]

theorem twoBytes_setCcr (s : State) (c : Byte) (a : Word) :
    (s.setCcr c).twoBytes a = ((s.twoBytes a).1, (s.twoBytes a).2.setCcr c) := by
  simp only [State.twoBytes, loadByte_setCcr]

/-- A word of ROM or RAM is what storage holds, and reading it changes nothing. -/
theorem twoBytes_of_storage (s : State) (a : Word) (h0 : s.Storage (a &&& 0xFFFE#16))
    (h1 : s.Storage ((a &&& 0xFFFE#16) + 1#16)) : s.twoBytes a = (s.peekWord a, s) := by
  simp only [State.twoBytes, loadByte_storage s _ h0, loadByte_storage s _ h1]
  rfl

theorem loadWord_of_wordStorage (s : State) (a : Word) (h : s.WordStorage a) : s.loadWord a = .ok (s.peekWord a, s) := by
  obtain ⟨hw, h0, h1⟩ := h
  rw [loadWord_eq_twoBytes s a hw, twoBytes_of_storage s a h0 h1]

/-! ### The prefetched instruction (R71) -/

theorem takesWrite_eq_false_iff (c : Chip) (a : Word) :
    c.takesWrite a = false ↔ c.kindAt a = .rom ∨ c.kindAt a = .unmapped := by
  unfold Chip.takesWrite
  cases c.kindAt a <;> simp

theorem hitsPrefetch_eq_false_iff (s : State) (len a : Word) :
    s.hitsPrefetch (some (s.pc + len)) a = false ↔ s.ClearOfPrefetch len a := by
  simp only [State.hitsPrefetch, inPrefetch, State.ClearOfPrefetch, Bool.and_eq_false_iff, decide_eq_false_iff_not,
    Nat.not_lt, takesWrite_eq_false_iff]

theorem hitsPrefetch_eq_true_iff (s : State) (len a : Word) :
    s.hitsPrefetch (some (s.pc + len)) a = true ↔ ¬s.ClearOfPrefetch len a := by
  rw [← hitsPrefetch_eq_false_iff, Bool.not_eq_false]

theorem storeByte_clear {s : State} {len a : Word} (h : s.ClearOfPrefetch len a) (v : Byte) :
    s.storeByte (some (s.pc + len)) a v = .ok (s.putByte a v) :=
  storeByte_ok s _ a v ((hitsPrefetch_eq_false_iff s len a).mpr h)

theorem storeByte_prefetched {s : State} {len a : Word} (h : ¬s.ClearOfPrefetch len a) (v : Byte) :
    s.storeByte (some (s.pc + len)) a v = .error .storeIntoPrefetched :=
  if_pos ((hitsPrefetch_eq_true_iff s len a).mpr h)

/-- Of the two tests of a word store, that of the prefetched instruction comes first. -/
theorem storeWord_clear {s : State} {len a : Word} (h : s.WordClearOfPrefetch len a) (v : Word) :
    s.storeWord (some (s.pc + len)) a v = s.putWord a v := by
  obtain ⟨h0, h1⟩ := h
  have h0 := (hitsPrefetch_eq_false_iff s len _).mpr h0
  have h1 := (hitsPrefetch_eq_false_iff s len _).mpr h1
  exact if_neg (by simp [evenAddr, h0, h1])

theorem storeWord_prefetched {s : State} {len a : Word} (h : ¬s.WordClearOfPrefetch len a) (v : Word) :
    s.storeWord (some (s.pc + len)) a v = .error .storeIntoPrefetched := by
  refine if_pos ?_
  rw [Bool.or_eq_true, hitsPrefetch_eq_true_iff, hitsPrefetch_eq_true_iff, ← not_and_or]
  exact h

theorem putWord_byteOnly (s : State) (a v : Word) (h : s.chip.wordOk a = false) :
    s.putWord a v = .error .wordAccessByteOnly :=
  if_neg (by simp [h])

/-! ### The stack (R62) -/

/-- A word pushed: the word below SP, and SP down to it. -/
def State.pushed (s : State) (v : Word) : State :=
  (s.putTwoBytes (s.reg .r7 - 2#16) v).setReg .r7 (s.reg .r7 - 2#16)

theorem putWord_setReg_sp (s : State) (v : Word) (hw : s.chip.wordOk (s.reg .r7 - 2#16) = true) :
    (s.setReg .r7 (s.reg .r7 - 2#16)).putWord (s.reg .r7 - 2#16) v = .ok (s.pushed v) := by
  rw [State.pushed, ← putTwoBytes_setReg]
  exact putWord_ok _ _ v hw

theorem push16_clear {s : State} {len : Word} (h : s.WordClearOfPrefetch len (s.reg .r7 - 2#16)) (v : Word) :
    s.push16 (some (s.pc + len)) v = (s.setReg .r7 (s.reg .r7 - 2#16)).putWord (s.reg .r7 - 2#16) v :=
  storeWord_clear (s := s.setReg .r7 (s.reg .r7 - 2#16)) h v

theorem push16_ok {s : State} {len : Word} (h : s.CanPush len) (v : Word) :
    s.push16 (some (s.pc + len)) v = .ok (s.pushed v) := by
  obtain ⟨hw, hclear⟩ := h
  rw [push16_clear hclear, putWord_setReg_sp s v hw]

theorem push16_byteOnly {s : State} {len : Word} (hw : s.chip.wordOk (s.reg .r7 - 2#16) = false)
    (hclear : s.WordClearOfPrefetch len (s.reg .r7 - 2#16)) (v : Word) :
    s.push16 (some (s.pc + len)) v = .error .wordAccessByteOnly := by
  rw [push16_clear hclear]
  exact putWord_byteOnly (s.setReg .r7 (s.reg .r7 - 2#16)) _ v hw

theorem push16_prefetched {s : State} {len : Word} (h : ¬s.WordClearOfPrefetch len (s.reg .r7 - 2#16)) (v : Word) :
    s.push16 (some (s.pc + len)) v = .error .storeIntoPrefetched :=
  storeWord_prefetched (s := s.setReg .r7 (s.reg .r7 - 2#16)) h v

/-- The pushes of an exception entry are held to no prefetched instruction. -/
theorem push16_none (s : State) (v : Word) (hw : s.chip.wordOk (s.reg .r7 - 2#16) = true) :
    s.push16 none v = .ok (s.pushed v) :=
  putWord_setReg_sp s v hw

theorem pop16_ok (s : State) (hw : s.chip.wordOk (s.reg .r7) = true) :
    s.pop16 = .ok ((s.twoBytes (s.reg .r7)).1, (s.twoBytes (s.reg .r7)).2.setReg .r7 (s.reg .r7 + 2#16)) := by
  simp only [State.pop16, loadWord_eq_twoBytes s _ hw, twoBytes_reg]

theorem pop16_byteOnly (s : State) (hw : s.chip.wordOk (s.reg .r7) = false) : s.pop16 = .error .wordAccessByteOnly := by
  unfold State.pop16
  rw [loadWord_refused s _ hw]

end Sys2Proof.Machine
end

section
/-! The step of a running CPU that takes no exception (R375, R376): the fetch, and the instruction or the refusal it
leads to. -/

namespace Sys2Proof.Machine

/-! ### The step runs an instruction -/

theorem step_running {s : State} (hmode : s.mode = .programExecution) (hreset : s.boundary.reset = .inactive)
    (hacc : s.acceptedSource = none) : step s = s.pastBoundary.runInstruction := by
  simp only [step, cycle, hreset, hmode, runOrInterrupt, hacc]

theorem runInstruction_decoded {s s1 : State} {bytes rest : List Byte} {i : Instr}
    (hfetch : State.fetch { s with holdOff := false } = .ok (bytes, s1)) (hdecode : decode bytes = .ok (i, rest)) :
    s.runInstruction = exec i s1 := by
  simp only [State.runInstruction, hfetch, hdecode]

theorem runInstruction_undefined {s s1 : State} {bytes : List Byte} {e : DecodeError}
    (hfetch : State.fetch { s with holdOff := false } = .ok (bytes, s1)) (hdecode : decode bytes = .error e) :
    s.runInstruction = .refused (.undefinedCode e) := by
  simp only [State.runInstruction, hfetch, hdecode]

theorem runInstruction_fetch_refused {s : State} {r : Refusal}
    (hfetch : State.fetch { s with holdOff := false } = .error r) : s.runInstruction = .refused r := by
  simp only [State.runInstruction, hfetch]

/-- Settles O5: what is fetched is decoded and executed. -/
theorem stepRunsDecodedInstruction : Obligations.StepRunsDecodedInstruction := by
  intro s s1 bytes rest i hmode hreset hacc hfetch hdecode
  rw [step_running hmode hreset hacc]
  exact runInstruction_decoded hfetch hdecode

/-- Settles O7: what is fetched is no instruction. -/
theorem stepRefusesUndefinedCode : Obligations.StepRefusesUndefinedCode := by
  intro s s1 bytes e hmode hreset hacc hfetch hdecode
  rw [step_running hmode hreset hacc]
  exact runInstruction_undefined hfetch hdecode

/-! ### The fetch from memory -/

theorem fetch_two_bytes {s : State} (h : s.WordStorage s.pc) (hlong : isLong (s.peek (evenAddr s.pc)) = false) :
    s.fetch = .ok ([s.peek (evenAddr s.pc), s.peek (evenAddr s.pc + 1#16)], s) := by
  have hload : s.loadWord s.pc = .ok (word (s.peek (evenAddr s.pc)) (s.peek (evenAddr s.pc + 1#16)), s) :=
    loadWord_of_wordStorage s s.pc h
  simp [State.fetch, hload, hlong]

theorem fetch_four_bytes {s : State} (h : s.WordStorage s.pc) (h2 : s.WordStorage (s.pc + 2#16))
    (hlong : isLong (s.peek (evenAddr s.pc)) = true) :
    s.fetch = .ok ([s.peek (evenAddr s.pc), s.peek (evenAddr s.pc + 1#16), s.peek (evenAddr (s.pc + 2#16)),
      s.peek (evenAddr (s.pc + 2#16) + 1#16)], s) := by
  have hload : s.loadWord s.pc = .ok (word (s.peek (evenAddr s.pc)) (s.peek (evenAddr s.pc + 1#16)), s) :=
    loadWord_of_wordStorage s s.pc h
  have hload2 : s.loadWord (s.pc + 2#16) =
      .ok (word (s.peek (evenAddr (s.pc + 2#16))) (s.peek (evenAddr (s.pc + 2#16) + 1#16)), s) :=
    loadWord_of_wordStorage s _ h2
  simp [State.fetch, hload, hload2, hlong]

/-- A 2-byte instruction is decoded alike with and without the bytes after it. -/
theorem decode_two_of_four {b0 b1 : Byte} {tail rest : List Byte} {i : Instr} (hlong : isLong b0 = false)
    (h : decode (b0 :: b1 :: tail) = .ok (i, rest)) : decode [b0, b1] = .ok (i, []) := by
  rcases decode_ok_cases h with ⟨c0, c1, heq, hdef, _, hrow⟩ | ⟨c0, c1, c2, c3, heq, hlong', _⟩
  · cases heq
    exact decode_of_decodeShort hdef hlong hrow []
  · cases heq
    rw [hlong] at hlong'
    cases hlong'

/-- Settles O6: the fetch reads the code's first word, and its second just where the first byte has one. -/
theorem stepRunsInstructionInMemory : Obligations.StepRunsInstructionInMemory := by
  intro s rest i hmode hreset hacc hword hword2 hdecode
  cases hlong : isLong (s.peek (s.pc &&& 0xFFFE#16)) with
  | false =>
    exact stepRunsDecodedInstruction s _ _ _ i hmode hreset hacc
      (fetch_two_bytes (s := { s with inputs := s.inputs.tail, holdOff := false }) hword hlong)
      (decode_two_of_four hlong hdecode)
  | true =>
    exact stepRunsDecodedInstruction s _ _ _ i hmode hreset hacc
      (fetch_four_bytes (s := { s with inputs := s.inputs.tail, holdOff := false }) hword (hword2 hlong) hlong) hdecode

/-! ### The fetch from a byte-only region (R61) -/

theorem fetch_first_byteOnly {s : State} (hw : s.chip.wordOk s.pc = false) : s.fetch = .error .wordAccessByteOnly := by
  simp only [State.fetch, loadWord_refused s s.pc hw]

theorem fetch_second_byteOnly {s : State} (hlong : isLong (s.loadByte (evenAddr s.pc)).1 = true)
    (hw : s.chip.wordOk (s.pc + 2#16) = false) : s.fetch = .error .wordAccessByteOnly := by
  cases hw0 : s.chip.wordOk s.pc with
  | false => exact fetch_first_byteOnly hw0
  | true =>
    have hupper : hi8 (s.twoBytes s.pc).1 = (s.loadByte (evenAddr s.pc)).1 := hi8_word _ _
    have hload2 : (s.twoBytes s.pc).2.loadWord (s.pc + 2#16) = .error .wordAccessByteOnly :=
      loadWord_refused _ _ (by rw [twoBytes_chip, hw])
    simp only [State.fetch, loadWord_eq_twoBytes s s.pc hw0, hupper, hlong, if_true, hload2]

/-- A read does not look at the coming boundaries or the hold-off. -/
theorem loadByte_fst_boundary (s : State) (later : List Boundary) (off : Bool) (a : Word) :
    (State.loadByte { s with inputs := later, holdOff := off } a).1 = (s.loadByte a).1 := by
  obtain ⟨_, _, _, _, _, _, chip, _, deviceIn, _, _⟩ := s
  unfold State.loadByte
  simp only [Chip.kindAt, Chip.regionAt]
  split <;> cases deviceIn <;> rfl

/-- A fetch that meets a byte-only region, with its first word or with the second of a 4-byte instruction. -/
theorem step_fetch_byteOnly {s : State} (hmode : s.mode = .programExecution) (hreset : s.boundary.reset = .inactive)
    (hacc : s.acceptedSource = none) (h : s.chip.wordOk s.pc = false ∨
      isLong (s.loadByte (s.pc &&& 0xFFFE#16)).1 = true ∧ s.chip.wordOk (s.pc + 2#16) = false) :
    step s = .refused .wordAccessByteOnly := by
  rw [step_running hmode hreset hacc]
  apply runInstruction_fetch_refused
  rcases h with hfirst | ⟨hlong, hsecond⟩
  · exact fetch_first_byteOnly hfirst
  · refine fetch_second_byteOnly (s := { s with inputs := s.inputs.tail, holdOff := false }) ?_ hsecond
    exact (congrArg isLong (loadByte_fst_boundary s s.inputs.tail false _)).trans hlong

end Sys2Proof.Machine
end

section
/-! MOV with memory, POP and PUSH (R120 to R146): each shared ending of Machine/DataTransfer.lean where it goes on and
where it is refused, and the addressing modes as uses of it. -/

namespace Sys2Proof.Machine

/-! ### Loads (R120) -/

theorem loadsByte_loadMovB (s : State) (len ea : Word) (rd : Reg8) : s.LoadsByte (loadMovB s len ea rd) len ea rd := by
  have flags := becomes_moved s.ccr (s.loadByte ea).1
  exact ⟨(s.loadByte ea).2.moveToRegB len (s.loadByte ea).1 rd, rfl, by simp [State.moveToRegB],
    by simp [State.moveToRegB], by simpa [State.moveToRegB] using flags,
    (onlyReads_loadByte s ea).keepsAllBut (keepsAllBut_setRegB_setCcr_advance _ rd _ _ len)⟩

theorem loadMovW_ok {s : State} {ea : Word} (hw : s.chip.wordOk ea = true) (len : Word) (rd : Reg16) :
    loadMovW s len ea rd = .next ((s.twoBytes ea).2.moveToReg len (s.twoBytes ea).1 rd) := by
  simp only [loadMovW, loadWord_eq_twoBytes s ea hw]

theorem loadMovW_byteOnly {s : State} {ea : Word} (hw : s.chip.wordOk ea = false) (len : Word) (rd : Reg16) :
    loadMovW s len ea rd = .refused .wordAccessByteOnly := by
  simp only [loadMovW, loadWord_refused s ea hw]

theorem loadsWord_loadMovW {s : State} {ea : Word} (hw : s.chip.wordOk ea = true) (len : Word) (rd : Reg16) :
    s.LoadsWord (loadMovW s len ea rd) len ea rd := by
  have flags := becomes_moved s.ccr (s.twoBytes ea).1
  exact ⟨_, loadMovW_ok hw len rd, by simp [State.moveToReg], by simp [State.moveToReg],
    by simpa [State.moveToReg] using flags,
    (onlyReads_twoBytes s ea).keepsAllBut (keepsAllBut_setReg_setCcr_advance _ rd _ _ len)⟩

/-- Settles O14: each mode is the shared load at its effective address. -/
theorem movByteLoads : Obligations.MovByteLoads := by
  intro s rm rd disp aa a8
  rw [← eaAbs8_eq_or]
  exact ⟨loadsByte_loadMovB s 2 (s.reg rm) rd, loadsByte_loadMovB s 4 (s.reg rm + disp) rd,
    loadsByte_loadMovB s 2 (eaAbs8 a8) rd, loadsByte_loadMovB s 4 aa rd⟩

/-- Settles O15: as O14, for words. -/
theorem movWordLoads : Obligations.MovWordLoads := fun _ _ rd _ _ =>
  ⟨fun hw => loadsWord_loadMovW hw 2 rd, fun hw => loadsWord_loadMovW hw 4 rd, fun hw => loadsWord_loadMovW hw 4 rd⟩

/-! ### POP and PUSH as MOV.W (R107, R143, R144) -/

theorem execPop_eq_movWPostInc (s : State) (rd : Reg16) : execPop rd s = execMovWPostInc .r7 rd s := by
  unfold execPop execMovWPostInc State.pop16
  cases s.loadWord (s.reg .r7) <;> rfl

/-- Settles O20: the pop is the load and the addition, the push the same store under two names. -/
theorem popAndPushAreMovW : Obligations.PopAndPushAreMovW := fun s r => ⟨rfl, execPop_eq_movWPostInc s r, rfl, rfl⟩

/-! ### Loads with post-increment (R125, R137, R143, R145) -/

/-- Settles O21: the tests on the operands come before any access. -/
theorem forbiddenAutoModifyRefused : Obligations.ForbiddenAutoModifyRefused := fun _ _ rm =>
  ⟨rfl, rfl, fun hne => ⟨(if_neg hne).trans (if_pos rfl), (if_neg hne).trans (if_pos rfl)⟩,
    if_pos (rfl : rm = rm), rfl⟩

theorem pair_ne_of_ne {rm : Reg16} {r : Reg8} (hhi : r ≠ .hi rm) (hlo : r ≠ .lo rm) : r.pair ≠ rm := by
  rintro rfl
  cases r with
  | hi n => exact hhi rfl
  | lo n => exact hlo rfl

/-- Two registers written, then CCR and the next instruction: the address register's bytes and the data's change. -/
theorem keepsAllBut_setReg_setRegB_setCcr_advance (s : State) (rm : Reg16) (a : Word) (rd : Reg8) (v ccr : Byte)
    (len : Word) :
    s.KeepsAllBut ((((s.setReg rm a).setRegB rd v).setCcr ccr).advance len) (rd :: rm.bytes) [] s := by
  have regs : s.KeepsRegsBut ((((s.setReg rm a).setRegB rd v).setCcr ccr).advance len) (rd :: rm.bytes) := by
    intro x hx
    obtain ⟨hrd, hrm⟩ := List.ne_and_not_mem_of_not_mem_cons hx
    rw [advance_regB, setCcr_regB, regB_setRegB_ne _ v hrd, regB_setReg_notMem s a hrm]
  exact ⟨regs, fun _ _ => by simp, by simp [State.KeepsControl], by simp [State.KeepsEnv]⟩

theorem keepsAllBut_setReg_setReg_setCcr_advance (s : State) (rm : Reg16) (a : Word) (rd : Reg16) (v : Word)
    (ccr : Byte) (len : Word) :
    s.KeepsAllBut ((((s.setReg rm a).setReg rd v).setCcr ccr).advance len) (rm.bytes ++ rd.bytes) [] s := by
  have regs : s.KeepsRegsBut ((((s.setReg rm a).setReg rd v).setCcr ccr).advance len) (rm.bytes ++ rd.bytes) := by
    intro x hx
    simp only [List.mem_append, not_or] at hx
    obtain ⟨hrm, hrd⟩ := hx
    rw [advance_regB, setCcr_regB, regB_setReg_notMem _ v hrd, regB_setReg_notMem s a hrm]
  exact ⟨regs, fun _ _ => by simp, by simp [State.KeepsControl], by simp [State.KeepsEnv]⟩

theorem execMovBPostInc_ok {s : State} {rm : Reg16} {rd : Reg8} (hsp : rm ≠ .r7) (hown : rd.pair ≠ rm) :
    execMovBPostInc rm rd s =
      .next (((s.loadByte (s.reg rm)).2.setReg rm (s.reg rm + 1#16)).moveToRegB 2 (s.loadByte (s.reg rm)).1 rd) := by
  simp only [execMovBPostInc, if_neg hsp, if_neg hown, loadByte_reg]

theorem execMovWPostInc_ok {s : State} {rm rd : Reg16} (hown : rd ≠ rm) (hw : s.chip.wordOk (s.reg rm) = true) :
    execMovWPostInc rm rd s =
      .next (((s.twoBytes (s.reg rm)).2.setReg rm (s.reg rm + 2#16)).moveToReg 2 (s.twoBytes (s.reg rm)).1 rd) := by
  simp only [execMovWPostInc, if_neg hown, loadWord_eq_twoBytes s _ hw, twoBytes_reg]

theorem execMovWPostInc_byteOnly {s : State} {rm rd : Reg16} (hown : rd ≠ rm)
    (hw : s.chip.wordOk (s.reg rm) = false) : execMovWPostInc rm rd s = .refused .wordAccessByteOnly := by
  simp only [execMovWPostInc, if_neg hown, loadWord_refused s _ hw]

theorem loadsWordUp_execMovWPostInc {s : State} {rm rd : Reg16} (hown : rd ≠ rm)
    (hw : s.chip.wordOk (s.reg rm) = true) : s.LoadsWordUp (execMovWPostInc rm rd s) rm rd := by
  have flags := becomes_moved s.ccr (s.twoBytes (s.reg rm)).1
  exact ⟨_, execMovWPostInc_ok hown hw, by simp [State.moveToReg],
    by simp [State.moveToReg, reg_setReg_ne _ _ hown.symm], by simp [State.moveToReg],
    by simpa [State.moveToReg] using flags,
    (onlyReads_twoBytes s _).keepsAllBut (keepsAllBut_setReg_setReg_setCcr_advance _ rm _ rd _ _ 2)⟩

/-- Settles O16: with the data outside the address register, both writes stand. -/
theorem postIncrementLoads : Obligations.PostIncrementLoads := by
  intro s rm bd wd
  refine ⟨fun hsp hhi hlo => ?_, fun hw hown => loadsWordUp_execMovWPostInc hown hw, fun hw hown => ?_⟩
  · have hown := pair_ne_of_ne hhi hlo
    have flags := becomes_moved s.ccr (s.loadByte (s.reg rm)).1
    exact ⟨_, execMovBPostInc_ok hsp hown, by simp [State.moveToRegB],
      by simp [State.moveToRegB, reg_setRegB_ne _ _ hown.symm], by simp [State.moveToRegB],
      by simpa [State.moveToRegB] using flags,
      (onlyReads_loadByte s _).keepsAllBut (keepsAllBut_setReg_setRegB_setCcr_advance _ rm _ bd _ _ 2)⟩
  · have hexec : exec (.pop wd) s = execMovWPostInc .r7 wd s := execPop_eq_movWPostInc s wd
    rw [hexec]
    exact loadsWordUp_execMovWPostInc hown hw

/-! ### Stores (R120) -/

theorem storeMovB_clear {s : State} {len ea : Word} (h : s.ClearOfPrefetch len ea) (v : Byte) :
    storeMovB s len ea v = .next (((s.putByte ea v).setCcr (CCR.moved s.ccr v)).advance len) := by
  simp only [storeMovB, State.nextPc, storeByte_clear h, putByte_ccr]

theorem storeMovB_prefetched {s : State} {len ea : Word} (h : ¬s.ClearOfPrefetch len ea) (v : Byte) :
    storeMovB s len ea v = .refused .storeIntoPrefetched := by
  simp only [storeMovB, State.nextPc, storeByte_prefetched h]

theorem storeMovW_clear {s : State} {len ea : Word} (hw : s.chip.wordOk ea = true) (h : s.WordClearOfPrefetch len ea)
    (v : Word) : storeMovW s len ea v = .next (((s.putTwoBytes ea v).setCcr (CCR.moved s.ccr v)).advance len) := by
  simp only [storeMovW, State.nextPc, storeWord_clear h, putWord_ok s ea v hw, putTwoBytes_ccr]

theorem storeMovW_prefetched {s : State} {len ea : Word} (h : ¬s.WordClearOfPrefetch len ea) (v : Word) :
    storeMovW s len ea v = .refused .storeIntoPrefetched := by
  simp only [storeMovW, State.nextPc, storeWord_prefetched h]

theorem storeMovW_byteOnly {s : State} {len ea : Word} (hw : s.chip.wordOk ea = false)
    (h : s.WordClearOfPrefetch len ea) (v : Word) : storeMovW s len ea v = .refused .wordAccessByteOnly := by
  simp only [storeMovW, State.nextPc, storeWord_clear h, putWord_byteOnly s ea v hw]

theorem storesByte_storeMovB {s : State} {len ea : Word} (h : s.ClearOfPrefetch len ea) (v : Byte) :
    s.StoresByte (storeMovB s len ea v) len ea v :=
  ⟨_, storeMovB_clear h v, by simp, becomes_moved s.ccr v, fun _ _ => by simp, by simp [State.KeepsControl],
    storedByte_of_putByte rfl ⟨rfl, rfl, rfl⟩⟩

theorem storesWord_storeMovW {s : State} {len ea : Word} (hw : s.chip.wordOk ea = true)
    (h : s.WordClearOfPrefetch len ea) (v : Word) : s.StoresWord (storeMovW s len ea v) len ea v :=
  ⟨_, storeMovW_clear hw h v, by simp, becomes_moved s.ccr v, fun _ _ => by simp, by simp [State.KeepsControl],
    storedWord_of_putTwoBytes rfl ⟨rfl, rfl, rfl⟩⟩

/-- Settles O17: each mode is the shared store at its effective address. -/
theorem movByteStores : Obligations.MovByteStores := by
  intro s rs rm disp aa a8
  rw [← eaAbs8_eq_or]
  exact ⟨fun h => storesByte_storeMovB h (s.regB rs), fun h => storesByte_storeMovB h (s.regB rs),
    fun h => storesByte_storeMovB h (s.regB rs), fun h => storesByte_storeMovB h (s.regB rs)⟩

/-- Settles O18: as O17, for words. -/
theorem movWordStores : Obligations.MovWordStores := fun s rs _ _ _ =>
  ⟨fun hw h => storesWord_storeMovW hw h (s.reg rs), fun hw h => storesWord_storeMovW hw h (s.reg rs),
    fun hw h => storesWord_storeMovW hw h (s.reg rs)⟩

/-! ### Stores with pre-decrement (R130, R141, R144, R145) -/

/-- What a data register holds once the address register has gone down (R145 a, D28). -/
theorem regB_setReg_eq_ite (s : State) (rm : Reg16) (a : Word) (r : Reg8) :
    (s.setReg rm a).regB r = if r = .hi rm then hi8 a else if r = .lo rm then lo8 a else s.regB r := by
  split_ifs with hhi hlo
  · rw [hhi, regB_setReg_hi]
  · rw [hlo, regB_setReg_lo]
  · exact regB_setReg_ne s a (pair_ne_of_ne hhi hlo)

theorem reg_setReg_eq_ite (s : State) (rm : Reg16) (a : Word) (n : Reg16) :
    (s.setReg rm a).reg n = if n = rm then a else s.reg n := by
  split_ifs with h
  · rw [h, reg_setReg_same]
  · exact reg_setReg_ne s a h

/-- The store is one of the state after the decrement, and its flags and its write are those of the state before. -/
theorem storesWordBelow_execMovWPreDec {s : State} (rs : Reg16) {rm : Reg16}
    (hw : s.chip.wordOk (s.reg rm - 2#16) = true) (h : s.WordClearOfPrefetch 2#16 (s.reg rm - 2#16)) :
    s.StoresWordBelow (execMovWPreDec rs rm s) rm (if rs = rm then s.reg rm - 2#16 else s.reg rs) := by
  rw [← reg_setReg_eq_ite]
  have hexec := storeMovW_clear (s := s.setReg rm (s.reg rm - 2#16)) hw h ((s.setReg rm (s.reg rm - 2#16)).reg rs)
  rw [putTwoBytes_setReg] at hexec
  exact ⟨_, hexec, by simp, by simp, becomes_moved s.ccr _,
    fun x hx => by rw [advance_regB, setCcr_regB, regB_setReg_notMem _ _ hx, putTwoBytes_regB],
    by simp [State.KeepsControl], storedWord_of_putTwoBytes rfl ⟨rfl, rfl, rfl⟩⟩

/-- Settles O19: the value stored is read from the state after the decrement. -/
theorem preDecrementStores : Obligations.PreDecrementStores := by
  intro s bs rs rm
  refine ⟨fun hsp h => ?_, storesWordBelow_execMovWPreDec rs, fun ⟨hw, h⟩ => storesWordBelow_execMovWPreDec rs hw h⟩
  have hexec : exec (.movBPreDec bs rm) s = _ :=
    (if_neg hsp).trans (storeMovB_clear (s := s.setReg rm (s.reg rm - 1#16)) h _)
  rw [putByte_setReg] at hexec
  exact ⟨_, _, hexec, regB_setReg_eq_ite s rm _ bs, by simp, by simp, becomes_moved s.ccr _,
    fun x hx => by rw [advance_regB, setCcr_regB, regB_setReg_notMem _ _ hx, putByte_regB],
    by simp [State.KeepsControl], storedByte_of_putByte rfl ⟨rfl, rfl, rfl⟩⟩

end Sys2Proof.Machine
end

section
/-! The bit instructions that write (R234 to R236, R246, R247): each operation bit by bit, and what `modifyBit` of
Machine/BitManipulation.lean does at either place of the operand byte (R230). -/

namespace Sys2Proof.Machine

/-! ### The operations bit by bit -/

theorem getLsbD_bitMask (bn : BitVec 3) {i : Nat} (hi : i < 8) : (bitMask bn).getLsbD i = decide (i = bn.toNat) := by
  have hone : (0x01#8).getLsbD (i - bn.toNat) = decide (i - bn.toNat = 0) := BitVec.getLsbD_one
  rw [bitMask, BitVec.getLsbD_shiftLeft, hone]
  grind

theorem bitChanged_setBit (bn : BitVec 3) (v : Byte) : BitChanged bn.toNat (fun _ => true) v (setBit bn v) := by
  intro i hi
  rw [setBit, BitVec.getLsbD_or, getLsbD_bitMask bn hi]
  split_ifs with h <;> simp [h]

theorem bitChanged_clearBit (bn : BitVec 3) (v : Byte) : BitChanged bn.toNat (fun _ => false) v (clearBit bn v) := by
  intro i hi
  rw [clearBit, BitVec.getLsbD_and, BitVec.getLsbD_not, getLsbD_bitMask bn hi]
  split_ifs with h <;> simp [h, hi]

theorem bitChanged_invertBit (bn : BitVec 3) (v : Byte) : BitChanged bn.toNat (fun b => !b) v (invertBit bn v) := by
  intro i hi
  rw [invertBit, BitVec.getLsbD_xor, getLsbD_bitMask bn hi]
  split_ifs with h <;> simp [h]

theorem bitChanged_putBit (bn : BitVec 3) (b : Bool) (v : Byte) :
    BitChanged bn.toNat (fun _ => b) v (putBit bn b v) := by
  cases b with
  | false => exact bitChanged_clearBit bn v
  | true => exact bitChanged_setBit bn v

/-! ### On a register -/

/-- The eight register forms alike: the operation and the source of the bit number are all that tells them apart. -/
theorem changesRegBit_of_exec {s : State} {i : Instr} {rd : Reg8} {k : Nat} {g : Bool → Bool} {f : Byte → Byte}
    (hf : BitChanged k g (s.regB rd) (f (s.regB rd))) (h : exec i s = modifyBit s 2 (.reg rd) f) :
    s.ChangesRegBit (exec i s) rd k g := by
  have hexec : exec i s = .next ((s.setRegB rd (f (s.regB rd))).advance 2) := h
  exact ⟨_, hexec, by simpa using hf, by simp, by simp, keepsAllBut_setRegB_advance s rd _ 2⟩

/-- Settles O37: each encoding is the one of the table, and `exec` is `modifyBit` on the register with the operation
that the statement names. -/
theorem bitWritesInRegister : Obligations.BitWritesInRegister := by
  intro s k rn rd
  rw [← toNat_bitNumber]
  exact ⟨⟨rfl, rfl, changesRegBit_of_exec (bitChanged_setBit k _) rfl,
      changesRegBit_of_exec (bitChanged_setBit (s.bitNumber rn) _) rfl⟩,
    ⟨rfl, rfl, changesRegBit_of_exec (bitChanged_clearBit k _) rfl,
      changesRegBit_of_exec (bitChanged_clearBit (s.bitNumber rn) _) rfl⟩,
    ⟨rfl, rfl, changesRegBit_of_exec (bitChanged_invertBit k _) rfl,
      changesRegBit_of_exec (bitChanged_invertBit (s.bitNumber rn) _) rfl⟩,
    ⟨rfl, rfl, changesRegBit_of_exec (bitChanged_putBit k (CCR.c s.ccr) _) rfl,
      changesRegBit_of_exec (bitChanged_putBit k (!CCR.c s.ccr) _) rfl⟩⟩

/-! ### In memory -/

/-- The read before the write does not move the prefetched instruction. -/
theorem modifyBit_mem_clear {s : State} {ea : Word} (h : s.ClearOfPrefetch 4#16 ea) (f : Byte → Byte) :
    modifyBit s 4#16 (.mem ea) f = .next (((s.loadByte ea).2.putByte ea (f (s.loadByte ea).1)).advance 4#16) := by
  have hclear : (s.loadByte ea).2.ClearOfPrefetch 4#16 ea := by
    rw [State.ClearOfPrefetch, loadByte_pc, loadByte_chip]
    exact h
  have hstore := storeByte_clear hclear (f (s.loadByte ea).1)
  rw [loadByte_pc] at hstore
  simp only [modifyBit, State.readPlace, State.writePlace, State.nextPc, hstore]

theorem modifyBit_mem_prefetched {s : State} {ea : Word} (h : ¬s.ClearOfPrefetch 4#16 ea) (f : Byte → Byte) :
    modifyBit s 4#16 (.mem ea) f = .refused .storeIntoPrefetched := by
  have hhit : ¬(s.loadByte ea).2.ClearOfPrefetch 4#16 ea := by
    rw [State.ClearOfPrefetch, loadByte_pc, loadByte_chip]
    exact h
  have hstore := storeByte_prefetched hhit (f (s.loadByte ea).1)
  rw [loadByte_pc] at hstore
  simp only [modifyBit, State.readPlace, State.writePlace, State.nextPc, hstore]

/-- The sixteen memory forms alike: the place, the operation and the source of the bit number are all that tells them
apart. -/
theorem changesMemBit_of_exec {s : State} {i : Instr} {ea : Word} {k : Nat} {g : Bool → Bool} {f : Byte → Byte}
    (hf : BitChanged k g (s.loadByte ea).1 (f (s.loadByte ea).1)) (h : exec i s = modifyBit s 4#16 (.mem ea) f) :
    s.ChangesMemBit (exec i s) ea k g := by
  intro hclear
  rw [h, modifyBit_mem_clear hclear]
  exact ⟨_, _, rfl, hf, storedByte_of_putByte rfl ⟨rfl, rfl, rfl⟩, by simp, by simp, fun _ _ => by simp,
    by simp [State.KeepsControl]⟩

/-- Settles O38: `exec` is `modifyBit` on the byte at the effective address with the operation that the statement
names. -/
theorem bitWritesInMemory : Obligations.BitWritesInMemory := by
  intro s k rn rm a8
  rw [← toNat_bitNumber, ← eaAbs8_eq_or]
  exact ⟨⟨changesMemBit_of_exec (bitChanged_setBit k _) rfl, changesMemBit_of_exec (bitChanged_setBit k _) rfl,
      changesMemBit_of_exec (bitChanged_setBit (s.bitNumber rn) _) rfl,
      changesMemBit_of_exec (bitChanged_setBit (s.bitNumber rn) _) rfl⟩,
    ⟨changesMemBit_of_exec (bitChanged_clearBit k _) rfl, changesMemBit_of_exec (bitChanged_clearBit k _) rfl,
      changesMemBit_of_exec (bitChanged_clearBit (s.bitNumber rn) _) rfl,
      changesMemBit_of_exec (bitChanged_clearBit (s.bitNumber rn) _) rfl⟩,
    ⟨changesMemBit_of_exec (bitChanged_invertBit k _) rfl, changesMemBit_of_exec (bitChanged_invertBit k _) rfl,
      changesMemBit_of_exec (bitChanged_invertBit (s.bitNumber rn) _) rfl,
      changesMemBit_of_exec (bitChanged_invertBit (s.bitNumber rn) _) rfl⟩,
    ⟨changesMemBit_of_exec (bitChanged_putBit k (CCR.c s.ccr) _) rfl,
      changesMemBit_of_exec (bitChanged_putBit k (CCR.c s.ccr) _) rfl⟩,
    ⟨changesMemBit_of_exec (bitChanged_putBit k (!CCR.c s.ccr) _) rfl,
      changesMemBit_of_exec (bitChanged_putBit k (!CCR.c s.ccr) _) rfl⟩⟩

end Sys2Proof.Machine
end

section
/-! Comparisons and branches, jumps, calls and returns (R270 to R282, R300), and the two refusals that many instructions
share: a store into the prefetched instruction (R71) and a word access to a byte-only region (R61). -/

namespace Sys2Proof.Machine

/-! ### Comparison, then a branch (R273, R274, R276) -/

/-- A difference is 0 just when its operands are the same. -/
theorem subAlu_z_iff (half : Nat) {w : Nat} (a b : BitVec w) : (subAlu half a b false).z = true ↔ a = b := by
  have hz : (subAlu half a b false).z = ((subAlu half a b false).value == 0) := rfl
  have hv := subAlu_value_toNat half a b false
  have ha := a.isLt
  have hb := b.isLt
  have h0 : (0 : BitVec w).toNat = 0 := BitVec.toNat_zero
  rw [Bool.toNat_false, Nat.add_zero] at hv
  rw [hz, beq_iff_eq, ← BitVec.toNat_inj, ← BitVec.toNat_inj (x := a), hv, h0]
  split_ifs <;> omega

/-- N and V of a difference tell the order of the operands as two's complement numbers (R160, R162). -/
theorem subAlu_n_ne_v_iff (half : Nat) {w : Nat} (hw : 0 < w) (a b : BitVec w) :
    (subAlu half a b false).n ≠ (subAlu half a b false).v ↔ a.toInt < b.toInt := by
  have hn : (subAlu half a b false).n = (subAlu half a b false).value.msb := rfl
  have hv : (subAlu half a b false).v = signedOverflow w (a.toInt - b.toInt - (0 : Nat)) := rfl
  have hr := subAlu_value_toNat half a b false
  have hpow := Nat.two_pow_pred_mul_two hw
  have ha := a.isLt
  have hb := b.isLt
  rw [hn, hv, ne_eq, Bool.eq_iff_iff, signedOverflow_iff, BitVec.msb_eq_decide, decide_eq_true_eq,
    BitVec.toInt_eq_toNat_cond, BitVec.toInt_eq_toNat_cond]
  simp only [Bool.toNat_false] at hr
  split_ifs at hr ⊢ <;> omega

/-- The eight conditions after a comparison of `a` with `b`, in the state `t` it leaves. -/
theorem branches_compare {w : Nat} (half : Nat) (hw : 0 < w) (a b : BitVec w) {t : State} {r : Byte}
    (ht : t.ccr = CCR.arith r (subAlu half a b false)) (d : Byte) :
    t.Branches (exec (.bhi d) t) d (b.toNat < a.toNat) ∧ t.Branches (exec (.bls d) t) d (a.toNat ≤ b.toNat) ∧
      t.Branches (exec (.bcs d) t) d (a.toNat < b.toNat) ∧ t.Branches (exec (.beq d) t) d (a = b) ∧
      t.Branches (exec (.bge d) t) d (b.toInt ≤ a.toInt) ∧ t.Branches (exec (.blt d) t) d (a.toInt < b.toInt) ∧
      t.Branches (exec (.bgt d) t) d (b.toInt < a.toInt) ∧ t.Branches (exec (.ble d) t) d (a.toInt ≤ b.toInt) := by
  have carry : CCR.c t.ccr = true ↔ a.toNat < b.toNat := by simp [ht, subAlu_c_iff]
  have zero : CCR.z t.ccr = true ↔ a = b := by rw [ht, z_arith, subAlu_z_iff]
  have less : CCR.lessThan t.ccr = true ↔ a.toInt < b.toInt := by
    rw [lessThan_iff, ht, n_arith, v_arith, subAlu_n_ne_v_iff half hw]
  have lowOrSame : CCR.lowOrSame t.ccr = true ↔ a.toNat ≤ b.toNat := by
    rw [lowOrSame_iff, carry, zero, Nat.le_iff_lt_or_eq, BitVec.toNat_inj]
  have lessOrEqual : CCR.lessOrEqual t.ccr = true ↔ a.toInt ≤ b.toInt := by
    rw [lessOrEqual_iff, ← lessThan_iff, less, zero, Int.le_iff_lt_or_eq, BitVec.toInt_inj, or_comm]
  exact ⟨branches_of_exec (by rw [Bool.not_eq_true', ← Bool.not_eq_true, lowOrSame, Nat.not_le]) rfl,
    branches_of_exec lowOrSame rfl, branches_of_exec carry rfl, branches_of_exec zero rfl,
    branches_of_exec (by rw [Bool.not_eq_true', ← Bool.not_eq_true, less, Int.not_lt]) rfl, branches_of_exec less rfl,
    branches_of_exec (by rw [Bool.not_eq_true', ← Bool.not_eq_true, lessOrEqual, Int.not_le]) rfl,
    branches_of_exec lessOrEqual rfl⟩

/-- Settles O42: a comparison leaves the flags of the difference, at either width. -/
theorem compareThenBranchOrders : Obligations.CompareThenBranchOrders := fun s bs bd ws wd d =>
  ⟨⟨_, rfl, branches_compare 4 (by decide) (s.regB bd) (s.regB bs) rfl d⟩,
    ⟨_, rfl, branches_compare 12 (by decide) (s.reg wd) (s.reg ws) rfl d⟩⟩

/-! ### Jumps (R277 to R279) -/

/-- The upper byte 0 beside the 8-bit address is that address, widened (R105). -/
theorem eaMemInd_eq_setWidth (aa : Byte) : eaMemInd aa = aa.setWidth 16 := by
  rw [eaMemInd, word, BitVec.append_def, BitVec.setWidth'_eq]
  simp

theorem execJmpMemInd_ok {s : State} {aa : Byte} (hw : s.chip.wordOk (eaMemInd aa) = true) :
    execJmpMemInd aa s = .next ((s.twoBytes (eaMemInd aa)).2.setPc (s.twoBytes (eaMemInd aa)).1) := by
  simp only [execJmpMemInd, loadWord_eq_twoBytes s _ hw]

/-- Settles O43: PC at the target; of the pointer's read, its effects remain. -/
theorem jumps : Obligations.Jumps := by
  intro s rm aa a8
  rw [← eaMemInd_eq_setWidth]
  refine ⟨⟨rfl, goesTo_setPc s (s.reg rm)⟩, ⟨rfl, goesTo_setPc s aa⟩, rfl, fun hw => ?_⟩
  exact ⟨_, execJmpMemInd_ok hw, by simp, by simp, (onlyReads_twoBytes s _).keepsAllBut (keepsAllBut_setPc _ _)⟩

/-! ### Calls (R280, R281) -/

@[simp] theorem pushed_reg_sp (s : State) (v : Word) : (s.pushed v).reg .r7 = s.reg .r7 - 2#16 := by simp [State.pushed]
@[simp] theorem pushed_pc (s : State) (v : Word) : (s.pushed v).pc = s.pc := by simp [State.pushed]
@[simp] theorem pushed_ccr (s : State) (v : Word) : (s.pushed v).ccr = s.ccr := by simp [State.pushed]
@[simp] theorem pushed_mode (s : State) (v : Word) : (s.pushed v).mode = s.mode := by simp [State.pushed]
@[simp] theorem pushed_holdOff (s : State) (v : Word) : (s.pushed v).holdOff = s.holdOff := by simp [State.pushed]
@[simp] theorem pushed_chip (s : State) (v : Word) : (s.pushed v).chip = s.chip := by simp [State.pushed]
@[simp] theorem pushed_inputs (s : State) (v : Word) : (s.pushed v).inputs = s.inputs := by simp [State.pushed]
@[simp] theorem pushed_deviceIn (s : State) (v : Word) : (s.pushed v).deviceIn = s.deviceIn := by simp [State.pushed]
@[simp] theorem pushed_mem (s : State) (v : Word) : (s.pushed v).mem = (s.putTwoBytes (s.reg .r7 - 2#16) v).mem := rfl

theorem pushed_regB {r : Reg8} (hr : r ∉ Reg16.r7.bytes) (s : State) (v : Word) : (s.pushed v).regB r = s.regB r := by
  rw [State.pushed, regB_setReg_notMem _ _ hr, putTwoBytes_regB]

theorem callTo_ok {s : State} {len : Word} (h : s.CanPush len) (t : Word) :
    s.callTo len t = .next ((s.pushed (s.pc + len)).setPc t) := by
  simp only [State.callTo, State.nextPc, push16_ok h]

theorem callTo_prefetched {s : State} {len : Word} (h : ¬s.WordClearOfPrefetch len (s.reg .r7 - 2#16)) (t : Word) :
    s.callTo len t = .refused .storeIntoPrefetched := by
  simp only [State.callTo, State.nextPc, push16_prefetched h]

theorem callTo_byteOnly {s : State} {len : Word} (hw : s.chip.wordOk (s.reg .r7 - 2#16) = false)
    (h : s.WordClearOfPrefetch len (s.reg .r7 - 2#16)) (t : Word) : s.callTo len t = .refused .wordAccessByteOnly := by
  simp only [State.callTo, State.nextPc, push16_byteOnly hw h]

/-- The four calls alike: the target, and the reads that led to `e`, are all that tells them apart. -/
theorem callsTo_callTo {s e : State} {len : Word} (he : s.OnlyReads e) (h : s.CanPush len) (t : Word) :
    s.CallsTo (e.callTo len t) len t e := by
  obtain ⟨d, l, k, rfl⟩ := he
  exact ⟨_, callTo_ok (s := { s with deviceIn := d, envLog := l, draws := k }) h t, by simp,
    by rw [setPc_reg, pushed_reg_sp]; rfl, by simp,
    fun r hr => by rw [setPc_regB, pushed_regB hr]; cases r <;> rfl, by simp [State.KeepsControl],
    storedWord_of_putTwoBytes rfl ⟨rfl, rfl, rfl⟩⟩

theorem execJsrMemInd_ok {s : State} {aa : Byte} (hw : s.chip.wordOk (eaMemInd aa) = true) :
    execJsrMemInd aa s = (s.twoBytes (eaMemInd aa)).2.callTo 2 (s.twoBytes (eaMemInd aa)).1 := by
  simp only [execJsrMemInd, loadWord_eq_twoBytes s _ hw]

theorem execJsrMemInd_byteOnly {s : State} {aa : Byte} (hw : s.chip.wordOk (eaMemInd aa) = false) :
    execJsrMemInd aa s = .refused .wordAccessByteOnly := by
  simp only [execJsrMemInd, loadWord_refused s _ hw]

/-- Settles O44: each call is the shared one to its target; the pointer form's after its read. -/
theorem calls : Obligations.Calls := by
  intro s d rm aa a8
  rw [← eaMemInd_eq_setWidth]
  refine ⟨⟨rfl, fun h => callsTo_callTo (onlyReads_refl s) h _⟩, ⟨rfl, fun h => callsTo_callTo (onlyReads_refl s) h _⟩,
    ⟨rfl, fun h => callsTo_callTo (onlyReads_refl s) h _⟩, rfl, fun hw h => ?_⟩
  have hexec : exec (.jsrMemInd a8) s = _ := execJsrMemInd_ok hw
  rw [hexec]
  exact callsTo_callTo (onlyReads_twoBytes s _) h _

/-! ### Returns (R282, R300) -/

theorem execRts_ok {s : State} (hw : s.chip.wordOk (s.reg .r7) = true) :
    execRts s = .next (((s.twoBytes (s.reg .r7)).2.setReg .r7 (s.reg .r7 + 2#16)).setPc (s.twoBytes (s.reg .r7)).1) := by
  simp only [execRts, pop16_ok s hw]

theorem keepsAllBut_setReg_setCcr_setPc (s : State) (n : Reg16) (v : Word) (ccr : Byte) (t : Word) :
    s.KeepsAllBut (((s.setReg n v).setCcr ccr).setPc t) n.bytes [] s := by
  have regs : s.KeepsRegsBut (((s.setReg n v).setCcr ccr).setPc t) n.bytes := fun x hx => by
    rw [setPc_regB, setCcr_regB, regB_setReg_notMem s v hx]
  exact ⟨regs, fun _ _ => by simp, by simp [State.KeepsControl], by simp [State.KeepsEnv]⟩

/-- Settles O45: the pop's word becomes PC. -/
theorem returnFromSubroutine : Obligations.ReturnFromSubroutine := by
  intro s
  refine ⟨rfl, fun hw => ?_⟩
  exact ⟨_, execRts_ok hw, by simp, by simp, by simp, (onlyReads_twoBytes s _).keepsAllBut
    (keepsAllBut_setReg_setCcr_setPc _ .r7 _ (s.twoBytes (s.reg .r7)).2.ccr _)⟩

/-- The state between the two pops of RTE (R300). -/
def State.afterCcrPop (s : State) : State :=
  ((s.twoBytes (s.reg .r7)).2.setReg .r7 (s.reg .r7 + 2#16)).setCcr (hi8 (s.twoBytes (s.reg .r7)).1)

/-- The two reads of RTE: the word at SP and the one above it. -/
def State.twoWords (s : State) : Word × State := (s.twoBytes (s.reg .r7)).2.twoBytes (s.reg .r7 + 2#16)

theorem afterCcrPop_pop16 (s : State) (hw : s.chip.wordOk (s.reg .r7 + 2#16) = true) :
    s.afterCcrPop.pop16 = .ok (s.twoWords.1,
      ((s.twoWords.2.setReg .r7 (s.reg .r7 + 2#16)).setCcr (hi8 (s.twoBytes (s.reg .r7)).1)).setReg .r7
        (s.reg .r7 + 4#16)) := by
  have hsp : s.afterCcrPop.reg .r7 = s.reg .r7 + 2#16 := by simp [State.afterCcrPop]
  have hsum : s.reg .r7 + 2#16 + 2#16 = s.reg .r7 + 4#16 := BitVec.add_assoc ..
  have hchip : s.afterCcrPop.chip = s.chip := by simp [State.afterCcrPop]
  rw [pop16_ok s.afterCcrPop (by rw [hsp, hchip, hw]), hsp, hsum, State.afterCcrPop, twoBytes_setCcr, twoBytes_setReg]
  rfl

theorem returnFromException_ok {s : State} (hw : s.chip.wordOk (s.reg .r7) = true)
    (hw2 : s.chip.wordOk (s.reg .r7 + 2#16) = true) :
    s.returnFromException = .ok ((((s.twoWords.2.setReg .r7 (s.reg .r7 + 2#16)).setCcr
      (hi8 (s.twoBytes (s.reg .r7)).1)).setReg .r7 (s.reg .r7 + 4#16)).setPc s.twoWords.1) := by
  have hsecond := afterCcrPop_pop16 s hw2
  rw [State.afterCcrPop] at hsecond
  simp only [State.returnFromException, pop16_ok s hw, hsecond]

theorem returnFromException_byteOnly {s : State}
    (h : s.chip.wordOk (s.reg .r7) = false ∨ s.chip.wordOk (s.reg .r7 + 2#16) = false) :
    s.returnFromException = .error .wordAccessByteOnly := by
  cases hw : s.chip.wordOk (s.reg .r7) with
  | false => simp only [State.returnFromException, pop16_byteOnly s hw]
  | true =>
    have hw2 : s.chip.wordOk (s.reg .r7 + 2#16) = false := h.resolve_left (by simp [hw])
    have hsecond := pop16_byteOnly s.afterCcrPop (by simpa [State.afterCcrPop] using hw2)
    rw [State.afterCcrPop] at hsecond
    simp only [State.returnFromException, pop16_ok s hw, hsecond]

theorem onlyReads_twoWords (s : State) : s.OnlyReads s.twoWords.2 :=
  (onlyReads_twoBytes s _).trans (onlyReads_twoBytes _ _)

/-- Settles O46: SP goes up in two steps of 2; CCR is the first word's upper byte. -/
theorem returnFromException : Obligations.ReturnFromException := by
  intro s
  refine ⟨rfl, fun hw hw2 => ?_⟩
  have hexec : exec .rte s = _ := congrArg outcome (returnFromException_ok hw hw2)
  have regs (x : Reg8) (hx : x ∉ Reg16.r7.bytes) (u : State) (v w : Word) (c : Byte) :
      (((u.setReg .r7 v).setCcr c).setReg .r7 w).regB x = u.regB x := by
    rw [regB_setReg_notMem _ w hx, setCcr_regB, regB_setReg_notMem u v hx]
  exact ⟨_, hexec, hi8_word _ _, rfl, by simp, (onlyReads_twoWords s).keepsAllBut
    ⟨fun x hx => by rw [setPc_regB, regs x hx], fun _ _ => by simp, by simp [State.KeepsControl],
      by simp [State.KeepsEnv]⟩⟩

/-! ### Refusals shared by many instructions -/

theorem execRts_byteOnly {s : State} (hw : s.chip.wordOk (s.reg .r7) = false) :
    execRts s = .refused .wordAccessByteOnly := by
  simp only [execRts, pop16_byteOnly s hw]

theorem execJmpMemInd_byteOnly {s : State} {aa : Byte} (hw : s.chip.wordOk (eaMemInd aa) = false) :
    execJmpMemInd aa s = .refused .wordAccessByteOnly := by
  simp only [execJmpMemInd, loadWord_refused s _ hw]

/-- A call after its pointer's read pushes where the call would without it. -/
theorem execJsrMemInd_push_byteOnly {s : State} (aa : Byte) (hw : s.chip.wordOk (s.reg .r7 - 2#16) = false)
    (h : s.WordClearOfPrefetch 2#16 (s.reg .r7 - 2#16)) : execJsrMemInd aa s = .refused .wordAccessByteOnly := by
  cases hptr : s.chip.wordOk (eaMemInd aa) with
  | false => exact execJsrMemInd_byteOnly hptr
  | true =>
    rw [execJsrMemInd_ok hptr]
    obtain ⟨d, l, k, he⟩ := onlyReads_twoBytes s (eaMemInd aa)
    rw [he]
    exact callTo_byteOnly (s := { s with deviceIn := d, envLog := l, draws := k }) hw h _

theorem execJsrMemInd_prefetched {s : State} {aa : Byte} (hptr : s.chip.wordOk (eaMemInd aa) = true)
    (h : ¬s.WordClearOfPrefetch 2#16 (s.reg .r7 - 2#16)) : execJsrMemInd aa s = .refused .storeIntoPrefetched := by
  rw [execJsrMemInd_ok hptr]
  obtain ⟨d, l, k, he⟩ := onlyReads_twoBytes s (eaMemInd aa)
  rw [he]
  exact callTo_prefetched (s := { s with deviceIn := d, envLog := l, draws := k }) h _

theorem execMovWPreDec_byteOnly {s : State} (rs : Reg16) {rm : Reg16} (hw : s.chip.wordOk (s.reg rm - 2#16) = false)
    (h : s.WordClearOfPrefetch 2#16 (s.reg rm - 2#16)) : execMovWPreDec rs rm s = .refused .wordAccessByteOnly :=
  storeMovW_byteOnly (s := s.setReg rm (s.reg rm - 2#16)) hw h _

theorem execMovWPreDec_prefetched {s : State} (rs : Reg16) {rm : Reg16}
    (h : ¬s.WordClearOfPrefetch 2#16 (s.reg rm - 2#16)) : execMovWPreDec rs rm s = .refused .storeIntoPrefetched :=
  storeMovW_prefetched (s := s.setReg rm (s.reg rm - 2#16)) h _

/-- Settles O12: each access is refused by the one operation that performs it; PUSH is MOV.W with pre-decrement of R7,
POP one with post-increment. -/
theorem wordAccessToByteOnlyRefused : Obligations.WordAccessToByteOnlyRefused := by
  intro s rm rd rs disp aa a8 d8
  rw [← eaMemInd_eq_setWidth]
  refine ⟨fun hw => ⟨loadMovW_byteOnly hw 2 rd, fun hown => execMovWPostInc_byteOnly hown hw,
      fun h => storeMovW_byteOnly hw h _⟩,
    fun hw => ⟨loadMovW_byteOnly hw 4 rd, fun h => storeMovW_byteOnly hw h _⟩,
    fun hw => ⟨loadMovW_byteOnly hw 4 rd, fun h => storeMovW_byteOnly hw h _⟩,
    fun hw h => execMovWPreDec_byteOnly rs hw h,
    fun hw => ⟨fun hown => (execPop_eq_movWPostInc s rd).trans (execMovWPostInc_byteOnly hown hw), execRts_byteOnly hw⟩,
    fun h => congrArg outcome (returnFromException_byteOnly h),
    fun hw => ⟨fun h => ⟨execMovWPreDec_byteOnly rs hw h, callTo_byteOnly hw h _, callTo_byteOnly hw h _,
      execJsrMemInd_push_byteOnly a8 hw h⟩, fun h => callTo_byteOnly hw h _⟩,
    fun hw => ⟨execJmpMemInd_byteOnly hw, execJsrMemInd_byteOnly hw⟩, step_fetch_byteOnly⟩

/-- Settles O22: each store is refused by the one operation that performs it; the bit instructions all by `modifyBit`. -/
theorem storeIntoPrefetchedRefused : Obligations.StoreIntoPrefetchedRefused := by
  intro s br bn rs rm disp aa a8 d8 k
  rw [← eaAbs8_eq_or, ← eaMemInd_eq_setWidth]
  refine ⟨fun h => storeMovB_prefetched h _, fun h => storeMovB_prefetched h _, fun h => storeMovB_prefetched h _,
    fun h => storeMovB_prefetched h _,
    fun hsp h => (if_neg hsp).trans (storeMovB_prefetched (s := s.setReg rm (s.reg rm - 1#16)) h _),
    fun h => storeMovW_prefetched h _, fun h => storeMovW_prefetched h _, fun h => storeMovW_prefetched h _,
    execMovWPreDec_prefetched rs,
    fun h => ⟨execMovWPreDec_prefetched rs h, callTo_prefetched h _, callTo_prefetched h _,
      fun hptr => execJsrMemInd_prefetched hptr h⟩,
    fun h => callTo_prefetched h _, fun h => ?_, fun h => ?_⟩
  all_goals
    simp only [List.forall_mem_cons, List.not_mem_nil, false_imp_iff, implies_true, and_true]
    exact ⟨modifyBit_mem_prefetched h _, modifyBit_mem_prefetched h _, modifyBit_mem_prefetched h _,
      modifyBit_mem_prefetched h _, modifyBit_mem_prefetched h _, modifyBit_mem_prefetched h _,
      modifyBit_mem_prefetched h _, modifyBit_mem_prefetched h _⟩

end Sys2Proof.Machine
end

section
/-! DAA and DAS (R176, R177), packed BCD addition (R181), DIVXU (R179) and SLEEP (R301): the instructions that may draw
free values, and the one that leaves the operation state. -/

namespace Sys2Proof.Machine

/-! ### The tables of DAA and DAS -/

/-- The model's table has every row of the statement's. -/
theorem daaRow_of_rowMatches {row : Bool × (Nat × Nat) × Bool × (Nat × Nat) × Byte × Bool} (hrow : row ∈ daaRows)
    {ccr b : Byte} (h : RowMatches ccr b row) :
    daaRow (CCR.c ccr) (CCR.h ccr) (hi4 b).toNat (lo4 b).toNat = some (row.2.2.2.2.1, row.2.2.2.2.2) := by
  rw [toNat_hi4, toNat_lo4]
  revert hrow row
  simp only [daaRows, List.forall_mem_cons, List.not_mem_nil, false_imp_iff, implies_true, and_true, RowMatches]
  refine ⟨?_, ?_, ?_, ?_, ?_, ?_, ?_, ?_, ?_⟩
  all_goals
    rintro ⟨hc, hu, hu', hh, hl, hl'⟩
    rw [hc, hh]
    simp only [daaRow]
    split_ifs <;> simp_all <;> omega

theorem dasRow_of_rowMatches {row : Bool × (Nat × Nat) × Bool × (Nat × Nat) × Byte × Bool} (hrow : row ∈ dasRows)
    {ccr b : Byte} (h : RowMatches ccr b row) :
    dasRow (CCR.c ccr) (CCR.h ccr) (hi4 b).toNat (lo4 b).toNat = some row.2.2.2.2.1 ∧
      CCR.c ccr = row.2.2.2.2.2 := by
  rw [toNat_hi4, toNat_lo4]
  revert hrow row
  simp only [dasRows, List.forall_mem_cons, List.not_mem_nil, false_imp_iff, implies_true, and_true, RowMatches]
  refine ⟨?_, ?_, ?_, ?_⟩
  all_goals
    rintro ⟨hc, hu, hu', hh, hl, hl'⟩
    rw [hc, hh]
    simp only [dasRow]
    split_ifs <;> simp_all

/-! ### The decimal result -/

/-- The decimal ending after any number of draws: N and Z of the result, the carry given, H and V drawn (D19). -/
theorem adjusts_decimalB (s : State) (k : Nat) (r : Byte) (c : Bool) (rd : Reg8) {result : Byte → Prop}
    {carry : Bool → Prop} (hr : result r) (hc : carry c) :
    s.Adjusts (.next (State.decimalB { s with draws := k } r c rd)) rd result carry := by
  obtain ⟨regs, mem, control, hdevice, hlog, _⟩ := keepsAllBut_setRegB_setCcr_advance { s with draws := k + 1 + 1 } rd r
    (CCR.setHNZVC s.ccr (Config.anyBits 1 k).msb r.msb (r == 0) (Config.anyBits 1 (k + 1)).msb c) 2
  refine ⟨State.decimalB { s with draws := k } r c rd, (Config.anyBits 1 k).msb, (Config.anyBits 1 (k + 1)).msb, c, rfl,
    ?_, hc, by simp [State.decimalB, State.draw], ?_, regs, mem, control, hdevice, hlog⟩
  all_goals
    have hvalue : (State.decimalB { s with draws := k } r c rd).regB rd = r := regB_setRegB_same _ rd r
    rw [hvalue]
  · exact hr
  · simp [CCR.Becomes, State.decimalB, State.draw]

/-- DAA is the decimal ending, with a row's result or, off the table, with two draws. -/
theorem execDaa_cases (s : State) (rd : Reg8) :
    ∃ k r c, execDaa rd s = .next (State.decimalB { s with draws := k } r c rd) := by
  unfold execDaa
  split
  · exact ⟨s.draws, _, _, rfl⟩
  · exact ⟨s.draws + 1 + 1, _, _, rfl⟩

/-- DAS is the decimal ending with the old carry, with a row's result or, off the table, with a draw. -/
theorem execDas_cases (s : State) (rd : Reg8) :
    ∃ k r, execDas rd s = .next (State.decimalB { s with draws := k } r (CCR.c s.ccr) rd) := by
  unfold execDas
  split
  · exact ⟨s.draws, _, rfl⟩
  · exact ⟨s.draws + 1, _, rfl⟩

theorem execDaa_row {s : State} {rd : Reg8} {adj : Byte} {c : Bool}
    (h : daaRow (CCR.c s.ccr) (CCR.h s.ccr) (hi4 (s.regB rd)).toNat (lo4 (s.regB rd)).toNat = some (adj, c)) :
    execDaa rd s = .next (s.decimalB (s.regB rd + adj) c rd) := by
  simp only [execDaa, h]

theorem execDas_row {s : State} {rd : Reg8} {adj : Byte}
    (h : dasRow (CCR.c s.ccr) (CCR.h s.ccr) (hi4 (s.regB rd)).toNat (lo4 (s.regB rd)).toNat = some adj) :
    execDas rd s = .next (s.decimalB (s.regB rd + adj) (CCR.c s.ccr) rd) := by
  simp only [execDas, h]

/-- Settles O29: a matching row is the one the model's table finds. -/
theorem decimalAdjustInTable : Obligations.DecimalAdjustInTable := by
  refine fun s rd => ⟨⟨rfl, fun row hrow hmatch => ?_⟩, rfl, fun row hrow hmatch => ?_⟩
  · have hexec : exec (.daa rd) s = _ := execDaa_row (daaRow_of_rowMatches hrow hmatch)
    rw [hexec]
    exact adjusts_decimalB s s.draws _ _ rd rfl rfl
  · obtain ⟨hfound, hcarry⟩ := dasRow_of_rowMatches hrow hmatch
    have hexec : exec (.das rd) s = _ := execDas_row hfound
    rw [hexec]
    exact adjusts_decimalB s s.draws _ _ rd rfl hcarry

/-- Settles O30: in and off the table the ending is the same. -/
theorem decimalAdjustAlwaysGoesOn : Obligations.DecimalAdjustAlwaysGoesOn := by
  intro s rd
  constructor
  · obtain ⟨k, r, c, h⟩ := execDaa_cases s rd
    have hexec : exec (.daa rd) s = _ := h
    rw [hexec]
    exact adjusts_decimalB s k r c rd trivial trivial
  · obtain ⟨k, r, h⟩ := execDas_cases s rd
    have hexec : exec (.das rd) s = _ := h
    rw [hexec]
    exact adjusts_decimalB s k r _ rd trivial rfl

/-! ### Packed BCD addition (R181) -/

/-- The number that two decimal digits and a carry of a hundred stand for. -/
def decimalValue (b : Byte) (c : Bool) : Nat := 10 * (b.toNat / 16) + b.toNat % 16 + 100 * c.toNat

/-- On the sum of two bytes of decimal digits and a carry, the table of DAA has a row, and its adjustment makes the sum
decimal. -/
theorem daaRow_of_decimal_sum {a b : Byte} (cin : Bool) (ha : a.toNat / 16 ≤ 9) (ha' : a.toNat % 16 ≤ 9)
    (hb : b.toNat / 16 ≤ 9) (hb' : b.toNat % 16 ≤ 9) :
    ∃ adj c, daaRow (add8 a b cin).c (add8 a b cin).h (hi4 (add8 a b cin).value).toNat
        (lo4 (add8 a b cin).value).toNat = some (adj, c) ∧
      decimalValue ((add8 a b cin).value + adj) c = decimalValue b false + decimalValue a false + cin.toNat ∧
      ((add8 a b cin).value + adj).toNat / 16 ≤ 9 ∧ ((add8 a b cin).value + adj).toNat % 16 ≤ 9 := by
  obtain ⟨hvalue, hh, _, hc⟩ := addsByte_add8 a b cin
  have hcin := cin.toNat_le
  rw [toNat_hi4, toNat_lo4]
  simp only [decimalValue, BitVec.toNat_add, Bool.toNat_false]
  generalize (add8 a b cin).value.toNat = sum at *
  cases hcarry : (add8 a b cin).c <;> cases hhalf : (add8 a b cin).h <;> simp only [daaRow] <;> split_ifs <;>
    simp_all <;> omega

/-- What the decimal ending leaves of its result and its carry. -/
theorem decimalB_regB (s : State) (r : Byte) (c : Bool) (rd : Reg8) : (s.decimalB r c rd).regB rd = r :=
  regB_setRegB_same _ rd r

theorem decimalB_c (s : State) (r : Byte) (c : Bool) (rd : Reg8) : CCR.c (s.decimalB r c rd).ccr = c := by
  simp [State.decimalB]

/-- Settles O31: DAA meets the flags and the value of the sum that ADDX left. -/
theorem bcdAdditionIsDecimal : Obligations.BcdAdditionIsDecimal := by
  intro s rs rd hs hs' hd hd'
  obtain ⟨adj, c, hrow, hdecimal, hdigits⟩ := daaRow_of_decimal_sum (CCR.c s.ccr) hd hd' hs hs'
  have hvalue : (s.extendB (add8 (s.regB rd) (s.regB rs) (CCR.c s.ccr)) rd).regB rd =
      (add8 (s.regB rd) (s.regB rs) (CCR.c s.ccr)).value := regB_setRegB_same _ rd _
  refine ⟨_, _, rfl, execDaa_row (adj := adj) (c := c) ?_, ?_⟩
  · rw [hvalue]
    simpa [State.extendB] using hrow
  · rw [hvalue, decimalB_regB, decimalB_c]
    simp only [decimalValue, Bool.toNat_false, Nat.mul_zero, Nat.add_zero] at hdecimal
    exact ⟨hdecimal, hdigits⟩

/-! ### DIVXU (R179) -/

theorem becomes_setNZ (r : Byte) (n z : Bool) : CCR.Becomes r (CCR.setNZ r n z) (CCR.h r) n z (CCR.v r) (CCR.c r) := by
  simp [CCR.Becomes]

theorem divide_fits (s : State) {n : Word} {v : Byte} (hv : v.toNat ≠ 0) (hq : n.toNat / v.toNat ≤ 255) :
    s.divide n v = (word (BitVec.ofNat 8 (n.toNat % v.toNat)) (BitVec.ofNat 8 (n.toNat / v.toNat)), s) :=
  if_pos ⟨fun h0 => hv (by rw [h0]; rfl), hq⟩

/-- A division that has no result draws one, and does nothing else. -/
theorem divide_cases (s : State) (n : Word) (v : Byte) : ∃ r k, s.divide n v = (r, { s with draws := k }) := by
  unfold State.divide
  split_ifs
  · exact ⟨_, s.draws, rfl⟩
  · exact ⟨_, s.draws + 1, rfl⟩

/-- Every division ends alike, whatever word it leaves in Rd. -/
theorem execDivxu_eq (s : State) (rs : Reg8) (rd : Reg16) {r : Word} {u : State}
    (h : s.divide (s.reg rd) (s.regB rs) = (r, u)) :
    execDivxu rs rd s =
      .next (((u.setReg rd r).setCcr (CCR.setNZ s.ccr (s.regB rs).msb (s.regB rs == 0))).advance 2) := by
  simp only [execDivxu, h]

/-- Settles O33: quotient and remainder each fit a byte. -/
theorem divxuQuotientAndRemainder : Obligations.DivxuQuotientAndRemainder := by
  intro s rs rd hv hq
  have hexec : exec (.divxu rs rd) s = _ := execDivxu_eq s rs rd (divide_fits s hv hq)
  have hrem := Nat.mod_lt (s.reg rd).toNat (Nat.pos_of_ne_zero hv)
  have hdivisor := (s.regB rs).isLt
  have hz : (s.regB rs == 0) = false := beq_eq_false_iff_ne.mpr fun h0 => hv (by rw [h0]; rfl)
  have quotient : (BitVec.ofNat 8 ((s.reg rd).toNat / (s.regB rs).toNat)).toNat = (s.reg rd).toNat / (s.regB rs).toNat :=
    Nat.mod_eq_of_lt (by omega)
  have remainder : (BitVec.ofNat 8 ((s.reg rd).toNat % (s.regB rs).toNat)).toNat = (s.reg rd).toNat % (s.regB rs).toNat :=
    Nat.mod_eq_of_lt (by omega)
  refine ⟨_, hexec, ?_, ?_, by simp, hz ▸ becomes_setNZ s.ccr (s.regB rs).msb (s.regB rs == 0),
    keepsAllBut_setReg_setCcr_advance s rd _ _ 2⟩
  · simp only [advance_regB, setCcr_regB, regB_setReg_lo, regB_setReg_hi, lo8_word, hi8_word, quotient, remainder]
    exact (Nat.div_add_mod' _ _).symm
  · simp only [advance_regB, setCcr_regB, regB_setReg_hi, hi8_word, remainder]
    exact hrem

/-- Settles O34: whether or not a value is drawn, the ending is the same. -/
theorem divxuAlwaysGoesOn : Obligations.DivxuAlwaysGoesOn := by
  intro s rs rd
  obtain ⟨r, k, hdivide⟩ := divide_cases s (s.reg rd) (s.regB rs)
  have hexec : exec (.divxu rs rd) s = _ := execDivxu_eq s rs rd hdivide
  obtain ⟨regs, mem, control, hdevice, hlog, _⟩ := keepsAllBut_setReg_setCcr_advance { s with draws := k } rd r
    (CCR.setNZ s.ccr (s.regB rs).msb (s.regB rs == 0)) 2
  exact ⟨rfl, _, hexec, rfl, becomes_setNZ s.ccr _ _, regs, mem, control, hdevice, hlog⟩

/-! ### SLEEP (R301) -/

/-- Settles O47: PC and the operation state are all that SLEEP writes. -/
theorem sleepPowersDown : Obligations.SleepPowersDown := fun s =>
  ⟨rfl, (s.advance 2).setMode .powerDown, rfl, rfl, rfl, rfl, fun r _ => by simp, fun a _ => by simp, ⟨rfl, rfl, rfl⟩, rfl,
    rfl, rfl⟩

end Sys2Proof.Machine
end

section
/-! The block transfer EEPMOV (R320): one turn of its loop, and the block by induction on the turns. -/

namespace Sys2Proof.Machine

/-! ### One turn -/

@[simp] theorem turn_pc (s : State) : s.turn.pc = s.pc := by simp [State.turn]
@[simp] theorem turn_ccr (s : State) : s.turn.ccr = s.ccr := by simp [State.turn]
@[simp] theorem turn_chip (s : State) : s.turn.chip = s.chip := by simp [State.turn]
@[simp] theorem turn_reg_source (s : State) : s.turn.reg .r5 = s.reg .r5 + 1#16 := by
  rw [State.turn, reg_setRegB_ne _ _ (by decide), reg_setReg_ne _ _ (by decide), reg_setReg_same]
@[simp] theorem turn_reg_dest (s : State) : s.turn.reg .r6 = s.reg .r6 + 1#16 := by
  rw [State.turn, reg_setRegB_ne _ _ (by decide), reg_setReg_same]
@[simp] theorem turn_regB_count (s : State) : s.turn.regB (.lo .r4) = s.regB (.lo .r4) - 1#8 := by
  rw [State.turn, regB_setRegB_same]

theorem turn_keepsControl (s : State) : s.KeepsControl s.turn := by simp [State.turn, State.KeepsControl]

theorem turn_keepsRegs (s : State) : s.KeepsRegsBut s.turn (.lo .r4 :: Reg16.r5.bytes ++ Reg16.r6.bytes) := by
  intro r hr
  simp only [List.cons_append, List.mem_cons, List.mem_append, not_or] at hr
  obtain ⟨h4, h5, h6⟩ := hr
  rw [State.turn, regB_setRegB_ne _ _ h4, regB_setReg_notMem _ _ h6, regB_setReg_notMem _ _ h5, putByte_regB,
    loadByte_regB]

/-- A turn changes no byte but the one at R6. -/
theorem turn_peek_ne (s : State) {x : Word} (h : x ≠ s.reg .r6) : s.turn.peek x = s.peek x := by
  simp only [State.turn, setRegB_peek, setReg_peek]
  rw [putByte_peek_ne _ _ h, loadByte_peek]

/-- From memory to RAM a turn copies the byte and meets no device. -/
theorem turn_storage {s : State} (hsource : s.Storage (s.reg .r5)) (hdest : s.chip.kindAt (s.reg .r6) = .ram) :
    s.KeepsEnv s.turn ∧ s.turn.peek (s.reg .r6) = s.peek (s.reg .r5) := by
  simp only [State.turn, loadByte_storage s _ hsource, putByte_ram s _ _ hdest]
  exact ⟨by simp [State.KeepsEnv], by simp⟩

theorem turn_clearOfPrefetch (s : State) (len a : Word) : s.turn.ClearOfPrefetch len a ↔ s.ClearOfPrefetch len a := by
  rw [State.ClearOfPrefetch, State.ClearOfPrefetch, turn_pc, turn_chip]

theorem loadByte_clearOfPrefetch (s : State) (b len a : Word) :
    (s.loadByte b).2.ClearOfPrefetch len a ↔ s.ClearOfPrefetch len a := by
  rw [State.ClearOfPrefetch, State.ClearOfPrefetch, loadByte_pc, loadByte_chip]

theorem copyByte_clear {s : State} {len : Word} (h : s.ClearOfPrefetch len (s.reg .r6)) :
    s.copyByte (s.pc + len) = .ok s.turn := by
  have hstore := storeByte_clear ((loadByte_clearOfPrefetch s (s.reg .r5) len _).mpr h) (s.loadByte (s.reg .r5)).1
  rw [loadByte_pc] at hstore
  simp only [State.copyByte, State.turn, loadByte_reg, hstore, putByte_reg, putByte_regB, loadByte_regB]

theorem copyByte_prefetched {s : State} {len : Word} (h : ¬s.ClearOfPrefetch len (s.reg .r6)) :
    s.copyByte (s.pc + len) = .error .storeIntoPrefetched := by
  have hstore := storeByte_prefetched (mt (loadByte_clearOfPrefetch s (s.reg .r5) len _).mp h) (s.loadByte (s.reg .r5)).1
  rw [loadByte_pc] at hstore
  simp only [State.copyByte, loadByte_reg, hstore]

/-! ### The loop -/

/-- The count after a turn is one less than before. -/
theorem turn_count_toNat {s : State} (h : s.regB (.lo .r4) ≠ 0#8) :
    (s.regB (.lo .r4)).toNat = (s.turn.regB (.lo .r4)).toNat + 1 := by
  rw [turn_regB_count]
  bv_omega

theorem execEepmov_done {s : State} (h : s.regB (.lo .r4) = 0#8) : execEepmov s = .next (s.advance 4) := by
  simp only [execEepmov, h, BitVec.toNat_ofNat, Nat.zero_mod, copyBlock]

theorem execEepmov_turn {s : State} (h : s.regB (.lo .r4) ≠ 0#8) (hclear : s.ClearOfPrefetch 4#16 (s.reg .r6)) :
    execEepmov s = execEepmov s.turn := by
  have hbyte : s.copyByte (s.nextPc 4) = .ok s.turn := copyByte_clear hclear
  have hnext : s.turn.nextPc 4 = s.nextPc 4 := by rw [State.nextPc, State.nextPc, turn_pc]
  simp only [execEepmov, turn_count_toNat h, copyBlock, hbyte, hnext]

theorem execEepmov_prefetched {s : State} (h : s.regB (.lo .r4) ≠ 0#8)
    (hhit : ¬s.ClearOfPrefetch 4#16 (s.reg .r6)) : execEepmov s = .refused .storeIntoPrefetched := by
  have hbyte : s.copyByte (s.nextPc 4) = .error .storeIntoPrefetched := copyByte_prefetched hhit
  simp only [execEepmov, turn_count_toNat h, copyBlock, hbyte]

/-- Settles O50: the loop's end, a turn that stores, and a turn that is refused. -/
theorem eepmovIsItsLoop : Obligations.EepmovIsItsLoop := by
  refine fun s => ⟨rfl, fun h => ?_, execEepmov_turn, execEepmov_prefetched⟩
  obtain ⟨t, hgo, hto⟩ := goesTo_setPc s (s.pc + 4#16)
  exact ⟨t, (execEepmov_done h).trans hgo, hto⟩

/-! ### The block -/

/-- What `n` turns and the move of PC do, from `s` to `t`. -/
structure State.BlockCopied (s t : State) (n : Nat) : Prop where
  source : t.reg .r5 = s.reg .r5 + BitVec.ofNat 16 n
  dest : t.reg .r6 = s.reg .r6 + BitVec.ofNat 16 n
  count : t.regB (.lo .r4) = 0#8
  regs : s.KeepsRegsBut t (.lo .r4 :: Reg16.r5.bytes ++ Reg16.r6.bytes)
  ccr : t.ccr = s.ccr
  pc : t.pc = (s.pc + 4#16) &&& 0xFFFE#16
  control : s.KeepsControl t
  outside : ∀ a, (∀ k, k < n → a ≠ s.reg .r6 + BitVec.ofNat 16 k) → t.peek a = s.peek a
  copied : (∀ k, k < n → s.Storage (s.reg .r5 + BitVec.ofNat 16 k) ∧
      s.chip.kindAt (s.reg .r6 + BitVec.ofNat 16 k) = .ram) →
    (∀ j k, j < k → k < n → s.reg .r6 + BitVec.ofNat 16 j ≠ s.reg .r5 + BitVec.ofNat 16 k) →
    s.KeepsEnv t ∧ ∀ k, k < n → t.peek (s.reg .r6 + BitVec.ofNat 16 k) = s.peek (s.reg .r5 + BitVec.ofNat 16 k)

theorem blockCopied_advance {s : State} (h : s.regB (.lo .r4) = 0#8) : s.BlockCopied (s.advance 4) 0 where
  source := (BitVec.add_zero _).symm
  dest := (BitVec.add_zero _).symm
  count := h
  regs _ _ := rfl
  ccr := rfl
  pc := rfl
  control := ⟨rfl, rfl, rfl, rfl⟩
  outside _ _ := rfl
  copied _ _ := ⟨⟨rfl, rfl, rfl⟩, fun _ hk => absurd hk (Nat.not_lt_zero _)⟩

/-- Place `k` of the block after a turn is place `k + 1` of the block before. -/
theorem add_one_add_ofNat (a : Word) (k : Nat) : a + 1#16 + BitVec.ofNat 16 k = a + BitVec.ofNat 16 (k + 1) := by
  rw [BitVec.add_assoc, BitVec.add_comm 1#16, ← BitVec.ofNat_add]

/-- The places of a block of at most 256 bytes are different addresses. -/
theorem add_ofNat_succ_ne (a : Word) {k : Nat} (h : k < 256) : a ≠ a + BitVec.ofNat 16 (k + 1) := by
  intro heq
  have := congrArg BitVec.toNat heq
  rw [BitVec.toNat_add, BitVec.toNat_ofNat] at this
  omega

/-- One turn more, before the others. -/
theorem blockCopied_of_turn {s t : State} {n : Nat} (hn : n < 256) (h : s.turn.BlockCopied t n) :
    s.BlockCopied t (n + 1) where
  source := by rw [h.source, turn_reg_source, add_one_add_ofNat]
  dest := by rw [h.dest, turn_reg_dest, add_one_add_ofNat]
  count := h.count
  regs r hr := (h.regs r hr).trans (turn_keepsRegs s r hr)
  ccr := h.ccr.trans (turn_ccr s)
  pc := by rw [h.pc, turn_pc]
  control := by
    obtain ⟨hmode, hoff, hchip, hinputs⟩ := turn_keepsControl s
    obtain ⟨kmode, koff, kchip, kinputs⟩ := h.control
    exact ⟨kmode.trans hmode, koff.trans hoff, kchip.trans hchip, kinputs.trans hinputs⟩
  outside a ha := by
    have hfirst : a ≠ s.reg .r6 := by simpa using ha 0 (Nat.succ_pos n)
    refine (h.outside a fun k hk => ?_).trans (turn_peek_ne s hfirst)
    rw [turn_reg_dest, add_one_add_ofNat]
    exact ha (k + 1) (Nat.succ_lt_succ hk)
  copied hstorage hfree := by
    have copied := h.copied
    have outside := h.outside (s.reg .r6)
    simp only [turn_reg_source, turn_reg_dest, add_one_add_ofNat, turn_chip, State.Storage] at copied outside
    obtain ⟨hsource, hdest⟩ := hstorage 0 (Nat.succ_pos n)
    simp only [BitVec.add_zero] at hsource hdest
    obtain ⟨env, first⟩ := turn_storage hsource hdest
    obtain ⟨envRest, rest⟩ := copied (fun k hk => hstorage (k + 1) (Nat.succ_lt_succ hk))
      fun j k hjk hk => hfree (j + 1) (k + 1) (Nat.succ_lt_succ hjk) (Nat.succ_lt_succ hk)
    refine ⟨⟨envRest.1.trans env.1, envRest.2.1.trans env.2.1, envRest.2.2.trans env.2.2⟩, fun k hk => ?_⟩
    cases k with
    | zero =>
      rw [BitVec.add_zero, BitVec.add_zero, outside fun k hk => add_ofNat_succ_ne _ (hk.trans hn), first]
    | succ k =>
      have hother : s.reg .r5 + BitVec.ofNat 16 (k + 1) ≠ s.reg .r6 := by
        simpa using (hfree 0 (k + 1) (Nat.succ_pos k) hk).symm
      rw [rest k (Nat.lt_of_succ_lt_succ hk), turn_peek_ne s hother]

theorem execEepmov_copies (n : Nat) {s : State} (hn : n = (s.regB (.lo .r4)).toNat)
    (hclear : ∀ k, k < n → s.ClearOfPrefetch 4#16 (s.reg .r6 + BitVec.ofNat 16 k)) :
    ∃ t, execEepmov s = .next t ∧ s.BlockCopied t n := by
  induction n generalizing s with
  | zero =>
    have h0 : s.regB (.lo .r4) = 0#8 := by bv_omega
    exact ⟨_, execEepmov_done h0, blockCopied_advance h0⟩
  | succ n ih =>
    have h0 : s.regB (.lo .r4) ≠ 0#8 := by bv_omega
    have hcount := turn_count_toNat h0
    have hfirst : s.ClearOfPrefetch 4#16 (s.reg .r6) := by simpa using hclear 0 (Nat.succ_pos n)
    have hrest (k : Nat) (hk : k < n) : s.turn.ClearOfPrefetch 4#16 (s.turn.reg .r6 + BitVec.ofNat 16 k) := by
      rw [turn_clearOfPrefetch, turn_reg_dest, add_one_add_ofNat]
      exact hclear (k + 1) (Nat.succ_lt_succ hk)
    obtain ⟨t, hexec, hcopied⟩ := ih (s := s.turn) (by omega) hrest
    have hlt := (s.regB (.lo .r4)).isLt
    exact ⟨t, (execEepmov_turn h0 hfirst).trans hexec, blockCopied_of_turn (by omega) hcopied⟩

/-- Settles O51: by induction on the turns that are left. -/
theorem eepmovCopiesBlock : Obligations.EepmovCopiesBlock := by
  intro s n hn hclear
  obtain ⟨t, hexec, h⟩ := execEepmov_copies n hn hclear
  exact ⟨t, hexec, h.source, h.dest, h.count, h.regs, h.ccr, h.pc, h.control, h.outside, h.copied⟩

end Sys2Proof.Machine
end

section
/-! The boundaries of a run (R332 to R342): requests that wait, the interrupt entry and the return from it, the
power-down state, the reset entry. -/

namespace Sys2Proof.Machine

/-! ### What the boundary asks (R337) -/

theorem boundary_cons {s : State} {b : Boundary} {later : List Boundary} (h : s.inputs = b :: later) :
    s.boundary = b := by
  simp only [State.boundary, h]

theorem boundary_nil {s : State} (h : s.inputs = []) : s.boundary = Boundary.quiet := by
  simp only [State.boundary, h]

theorem acceptable_iff (s : State) (src : IntSource) : s.acceptable src = true ↔
    src.id ∈ s.boundary.requests ∧ (src.nonmaskable = true ∨ CCR.i s.ccr = false) := by
  simp [State.acceptable]

/-- A search of the sources in their order finds the highest request. -/
theorem find_highestRequest {s : State} {p : IntSource → Prop} {src : IntSource} {f : IntSource → Bool}
    (hf : ∀ x, f x = true ↔ x.id ∈ s.boundary.requests ∧ (x.nonmaskable = true ∨ CCR.i s.ccr = false) ∧ p x)
    (h : s.HighestRequest s.boundary p src) : s.chip.sources.find? f = some src := by
  obtain ⟨above, below, hsources, hsrc, habove⟩ := h
  rw [List.find?_eq_some_iff_append]
  refine ⟨(hf src).mpr hsrc, above, below, hsources, fun x hx => ?_⟩
  rw [Bool.not_eq_true', ← Bool.not_eq_true, hf]
  exact habove x hx

theorem acceptedSource_of_highest {s : State} {src : IntSource} (hoff : s.holdOff = false)
    (haccept : s.boundary.accept = true) (h : s.HighestRequest s.boundary (fun _ => True) src) :
    s.acceptedSource = some src := by
  simp only [State.acceptedSource, hoff, haccept, Bool.not_false, Bool.and_self, if_true]
  exact find_highestRequest (fun x => by rw [acceptable_iff, and_true]) h

theorem wakeSource_of_highest {s : State} {src : IntSource}
    (h : s.HighestRequest s.boundary (fun x => x.wakes = true) src) : s.wakeSource = some src :=
  find_highestRequest (fun x => by rw [Bool.and_eq_true, acceptable_iff]; exact and_comm.trans and_assoc) h

theorem acceptedSource_none {s : State} (h : ∀ src ∈ s.chip.sources, s.acceptable src = false) :
    s.acceptedSource = none := by
  have hfind : s.chip.sources.find? s.acceptable = none := List.find?_eq_none.mpr fun src hsrc => by simp [h src hsrc]
  rw [State.acceptedSource, hfind, ite_self]

theorem wakeSource_none {s : State} (h : ∀ src ∈ s.chip.sources, src.wakes = true → s.acceptable src = false) :
    s.wakeSource = none := by
  refine List.find?_eq_none.mpr fun src hsrc => ?_
  rw [Bool.and_eq_true, not_and, Bool.not_eq_true]
  exact h src hsrc

theorem acceptedSource_waiting {s : State} (h : s.holdOff = true ∨ s.boundary.accept = false) :
    s.acceptedSource = none := by
  rcases h with h | h <;> simp [State.acceptedSource, h]

theorem acceptable_quiet {s : State} (h : s.boundary = Boundary.quiet) (src : IntSource) : s.acceptable src = false := by
  rw [← Bool.not_eq_true, acceptable_iff, h]
  exact fun hreq => List.not_mem_nil hreq.1

theorem acceptable_masked {s : State} {src : IntSource} (hi : CCR.i s.ccr = true)
    (h : src.id ∈ s.boundary.requests → src.nonmaskable = false) : s.acceptable src = false := by
  rw [← Bool.not_eq_true, acceptable_iff, hi]
  rintro ⟨hreq, hnon | hi⟩
  · rw [h hreq] at hnon
    cases hnon
  · cases hi

/-! ### The step by operation state (R376) -/

theorem step_powerDown {s : State} (hmode : s.mode = .powerDown) (hreset : s.boundary.reset = .inactive)
    (hwake : s.wakeSource = none) : step s = .next s.pastBoundary := by
  simp only [step, cycle, hreset, hmode, sleepOrInterrupt, hwake]

theorem step_wakes {s : State} {src : IntSource} (hmode : s.mode = .powerDown) (hreset : s.boundary.reset = .inactive)
    (hwake : s.wakeSource = some src) : step s = outcome (s.pastBoundary.takeInterrupt src) := by
  simp only [step, cycle, hreset, hmode, sleepOrInterrupt, hwake]

theorem step_interrupted {s : State} {src : IntSource} (hmode : s.mode = .programExecution)
    (hreset : s.boundary.reset = .inactive) (hacc : s.acceptedSource = some src) :
    step s = outcome (s.pastBoundary.takeInterrupt src) := by
  simp only [step, cycle, hreset, hmode, runOrInterrupt, hacc]

theorem step_resets {s : State}
    (h : s.boundary.reset = .request ∨ s.boundary.reset = .inactive ∧ s.mode = .resetState) :
    step s = outcome s.pastBoundary.takeReset := by
  rcases h with hrequest | ⟨hreset, hmode⟩
  · simp only [step, cycle, hrequest]
  · simp only [step, cycle, hreset, hmode]

theorem step_held {s : State} (h : s.boundary.reset = .hold) :
    step s = .next { s.pastBoundary with mode := .resetState, holdOff := false } := by
  simp only [step, cycle, h]

theorem mode_cases (s : State) : s.mode = .programExecution ∨ s.mode = .powerDown ∨ s.mode = .resetState := by
  cases s.mode <;> simp

/-- Where no request is taken in the present operation state, the boundary might as well be quiet. -/
theorem step_eq_quiet {s : State} {b : Boundary} {later : List Boundary} (hinputs : s.inputs = b :: later)
    (hreset : b.reset = .inactive) (hrun : s.mode = .programExecution → s.acceptedSource = none)
    (hsleep : s.mode = .powerDown → s.wakeSource = none) :
    step s = step { s with inputs := Boundary.quiet :: later } := by
  have hs : s.boundary.reset = .inactive := (congrArg Boundary.reset (boundary_cons hinputs)).trans hreset
  have hquiet (src : IntSource) : State.acceptable { s with inputs := Boundary.quiet :: later } src = false :=
    acceptable_quiet rfl src
  have hpast : State.pastBoundary { s with inputs := Boundary.quiet :: later } = s.pastBoundary := by
    rw [State.pastBoundary, State.pastBoundary, hinputs]
    rfl
  obtain hmode | hmode | hmode := mode_cases s
  · rw [step_running hmode hs (hrun hmode),
      step_running (s := { s with inputs := Boundary.quiet :: later }) hmode rfl
        (acceptedSource_none fun src _ => hquiet src), hpast]
  · rw [step_powerDown hmode hs (hsleep hmode),
      step_powerDown (s := { s with inputs := Boundary.quiet :: later }) hmode rfl
        (wakeSource_none fun src _ _ => hquiet src), hpast]
  · rw [step_resets (.inr ⟨hs, hmode⟩),
      step_resets (s := { s with inputs := Boundary.quiet :: later }) (.inr ⟨rfl, hmode⟩), hpast]

/-- Settles O53: each of the three leaves no request to take. -/
theorem requestsThatWait : Obligations.RequestsThatWait := by
  intro s b later hinputs hreset
  have hboundary := boundary_cons hinputs
  refine ⟨fun hi hmaskable => ?_, fun hmode hoff => ?_, fun hmode haccept => ?_⟩
  · have hmasked (src : IntSource) (hsrc : src ∈ s.chip.sources) : s.acceptable src = false :=
      acceptable_masked hi fun hreq => hmaskable src hsrc (hboundary ▸ hreq)
    exact step_eq_quiet hinputs hreset (fun _ => acceptedSource_none hmasked)
      fun _ => wakeSource_none fun src hsrc _ => hmasked src hsrc
  · exact step_eq_quiet hinputs hreset (fun _ => acceptedSource_waiting (.inl hoff))
      fun hdown => absurd (hmode.symm.trans hdown) (by decide)
  · exact step_eq_quiet hinputs hreset (fun _ => acceptedSource_waiting (.inr (hboundary ▸ haccept)))
      fun hdown => absurd (hmode.symm.trans hdown) (by decide)

/-! ### The frame of an interrupt entry (R338) -/

theorem evenAddr_sub_two (a : Word) : evenAddr (a - 2#16) = evenAddr a - 2#16 := by
  apply BitVec.eq_of_toNat_eq
  rw [toNat_evenAddr, BitVec.toNat_sub, BitVec.toNat_sub, toNat_evenAddr]
  have := a.isLt
  simp only [BitVec.toNat_ofNat]
  omega

/-- The even address of the word below a word is apart from both its bytes. -/
theorem evenAddr_sub_two_ne (a : Word) : evenAddr a ≠ evenAddr (a - 2#16) ∧ evenAddr a ≠ evenAddr (a - 2#16) + 1#16 ∧
    evenAddr a + 1#16 ≠ evenAddr (a - 2#16) ∧ evenAddr a + 1#16 ≠ evenAddr (a - 2#16) + 1#16 := by
  rw [evenAddr_sub_two]
  generalize evenAddr a = e
  refine ⟨?_, ?_, ?_, ?_⟩ <;> bv_omega

theorem sub_two_sub_two (a : Word) : a - 2#16 - 2#16 = a - 4#16 := by
  bv_omega

theorem putTwoBytes_ram {s : State} {a : Word} (h : s.WordRam a) (v : Word) :
    s.putTwoBytes a v = (s.poke (evenAddr a) (hi8 v)).poke (evenAddr a + 1#16) (lo8 v) := by
  obtain ⟨_, h0, h1⟩ := h
  have hupper : s.putByte (evenAddr a) (hi8 v) = s.poke (evenAddr a) (hi8 v) := putByte_ram s _ _ h0
  rw [State.putTwoBytes, hupper]
  exact putByte_ram _ _ _ h1

theorem putTwoBytes_ram_envLog {s : State} {a : Word} (h : s.WordRam a) (v : Word) :
    (s.putTwoBytes a v).envLog = s.envLog := by
  rw [putTwoBytes_ram h, poke_envLog, poke_envLog]

theorem putTwoBytes_ram_upper {s : State} {a : Word} (h : s.WordRam a) (v : Word) :
    (s.putTwoBytes a v).peek (evenAddr a) = hi8 v := by
  rw [putTwoBytes_ram h, peek_poke_ne _ _ (add_one_ne _).symm, peek_poke_same]

theorem putTwoBytes_ram_peekWord {s : State} {a : Word} (h : s.WordRam a) (v : Word) :
    (s.putTwoBytes a v).peekWord a = v := by
  have hlower : (s.putTwoBytes a v).peek (evenAddr a + 1#16) = lo8 v := by rw [putTwoBytes_ram h, peek_poke_same]
  calc (s.putTwoBytes a v).peekWord a
      = word ((s.putTwoBytes a v).peek (evenAddr a)) ((s.putTwoBytes a v).peek (evenAddr a + 1#16)) := rfl
    _ = v := by rw [putTwoBytes_ram_upper h, hlower, word_hi8_lo8]

/-- The state between the two pushes: PC on the stack, the free value for the frame's odd byte drawn (D13). -/
def State.pcPushed (s : State) : State := ((s.pushed s.pc).draw 8).2

/-- PC, then CCR, on the stack (R338, R339). -/
def State.framed (s : State) : State := s.pcPushed.pushed (word s.ccr ((s.pushed s.pc).draw 8).1)

theorem pcPushed_sp (s : State) : s.pcPushed.reg .r7 - 2#16 = s.reg .r7 - 4#16 := by
  rw [State.pcPushed, draw_reg, pushed_reg_sp, sub_two_sub_two]

theorem pcPushed_wordRam {s : State} {a : Word} (h : s.WordRam a) : s.pcPushed.WordRam a := by
  simpa [State.WordRam, State.pcPushed] using h

theorem pushFrame_ok {s : State} (hpc : s.chip.wordOk (s.reg .r7 - 2#16) = true)
    (hccr : s.chip.wordOk (s.reg .r7 - 4#16) = true) : s.pushFrame = .ok s.framed := by
  have hsecond : s.pcPushed.push16 none (word s.pcPushed.ccr ((s.pushed s.pc).draw 8).1) = .ok s.framed := by
    rw [push16_none _ _ (by rw [pcPushed_sp]; simpa [State.pcPushed] using hccr)]
    simp [State.framed, State.pcPushed]
  simp only [State.pushFrame, push16_none s s.pc hpc]
  exact hsecond

@[simp] theorem framed_reg_sp (s : State) : s.framed.reg .r7 = s.reg .r7 - 4#16 := by
  rw [State.framed, pushed_reg_sp, pcPushed_sp]
@[simp] theorem framed_ccr (s : State) : s.framed.ccr = s.ccr := by simp [State.framed, State.pcPushed]
@[simp] theorem framed_holdOff (s : State) : s.framed.holdOff = s.holdOff := by simp [State.framed, State.pcPushed]
@[simp] theorem framed_chip (s : State) : s.framed.chip = s.chip := by simp [State.framed, State.pcPushed]
@[simp] theorem framed_inputs (s : State) : s.framed.inputs = s.inputs := by simp [State.framed, State.pcPushed]
@[simp] theorem framed_deviceIn (s : State) : s.framed.deviceIn = s.deviceIn := by simp [State.framed, State.pcPushed]

theorem framed_keepsRegs (s : State) : s.KeepsRegsBut s.framed Reg16.r7.bytes := fun r hr => by
  rw [State.framed, pushed_regB hr, State.pcPushed, draw_regB, pushed_regB hr]

/-- What memory holds after the second push is what its word write left. -/
theorem framed_peek (s : State) (x : Word) : s.framed.peek x =
    (s.pcPushed.putTwoBytes (s.reg .r7 - 4#16) (word s.ccr ((s.pushed s.pc).draw 8).1)).peek x := by
  rw [State.framed, State.pushed, setReg_peek, pcPushed_sp]

theorem pcPushed_peek (s : State) (x : Word) :
    s.pcPushed.peek x = (s.putTwoBytes (s.reg .r7 - 2#16) s.pc).peek x := rfl

theorem framed_keepsMem (s : State) : s.KeepsMemBut s.framed [evenAddr (s.reg .r7 - 2#16),
    evenAddr (s.reg .r7 - 2#16) + 1#16, evenAddr (s.reg .r7 - 4#16), evenAddr (s.reg .r7 - 4#16) + 1#16] := by
  intro x hx
  simp only [List.mem_cons, List.not_mem_nil, or_false, not_or] at hx
  obtain ⟨hpc0, hpc1, hccr0, hccr1⟩ := hx
  rw [framed_peek, putTwoBytes_peek_ne _ _ hccr0 hccr1, pcPushed_peek, putTwoBytes_peek_ne _ _ hpc0 hpc1]

/-- The second push leaves the first one's word. -/
theorem framed_peekWord_pc {s : State} (h : s.WordRam (s.reg .r7 - 2#16)) :
    s.framed.peekWord (s.reg .r7 - 2#16) = s.pc := by
  obtain ⟨h00, h01, h10, h11⟩ := evenAddr_sub_two_ne (s.reg .r7 - 2#16)
  rw [sub_two_sub_two] at h00 h01 h10 h11
  have hupper := (framed_peek s _).trans (putTwoBytes_peek_ne s.pcPushed _ h00 h01)
  have hlower := (framed_peek s _).trans (putTwoBytes_peek_ne s.pcPushed _ h10 h11)
  calc s.framed.peekWord (s.reg .r7 - 2#16)
      = word (s.framed.peek (evenAddr (s.reg .r7 - 2#16))) (s.framed.peek (evenAddr (s.reg .r7 - 2#16) + 1#16)) := rfl
    _ = (s.putTwoBytes (s.reg .r7 - 2#16) s.pc).peekWord (s.reg .r7 - 2#16) := by rw [hupper, hlower]; rfl
    _ = s.pc := putTwoBytes_ram_peekWord h s.pc

theorem framed_peek_ccr {s : State} (h : s.WordRam (s.reg .r7 - 4#16)) :
    s.framed.peek (evenAddr (s.reg .r7 - 4#16)) = s.ccr := by
  rw [framed_peek, putTwoBytes_ram_upper (pcPushed_wordRam h), hi8_word]

theorem framed_envLog {s : State} (hpc : s.WordRam (s.reg .r7 - 2#16)) (hccr : s.WordRam (s.reg .r7 - 4#16)) :
    s.framed.envLog = s.envLog := by
  have hsecond : s.framed.envLog = s.pcPushed.envLog := by
    rw [State.framed, State.pushed, setReg_envLog, pcPushed_sp, putTwoBytes_ram_envLog (pcPushed_wordRam hccr)]
  rw [hsecond, State.pcPushed, draw_envLog, State.pushed, setReg_envLog, putTwoBytes_ram_envLog hpc]

/-! ### The interrupt entry (R336 to R338) -/

theorem jumpThroughVector_ok {s : State} {vector : Word} (h : s.WordStorage vector) :
    s.jumpThroughVector vector = .ok ((s.setPc (s.peekWord vector)).setMode .programExecution) := by
  simp only [State.jumpThroughVector, loadWord_of_wordStorage s vector h]

/-- The state after the entry of `src`. -/
def State.entered (s : State) (src : IntSource) : State :=
  { ((s.framed.setCcr (CCR.setI s.ccr true)).setPc (s.framed.peekWord src.vector)).setMode .programExecution with
    envLog := .accepted src.id :: s.framed.envLog }

theorem takeInterrupt_ok {s : State} {src : IntSource} (h : s.CanEnter src) :
    s.takeInterrupt src = .ok (s.entered src) := by
  obtain ⟨hpc, hccr, hvector⟩ := h
  have hjump : (s.framed.setCcr (CCR.setI s.framed.ccr true)).jumpThroughVector src.vector =
      .ok (((s.framed.setCcr (CCR.setI s.ccr true)).setPc (s.framed.peekWord src.vector)).setMode
        .programExecution) := by
    rw [framed_ccr]
    exact jumpThroughVector_ok (by simpa [State.WordStorage, State.Storage] using hvector)
  simp only [State.takeInterrupt, pushFrame_ok hpc.1 hccr.1, hjump]
  rfl

theorem getLsbD_setI (c : Byte) (b : Bool) {k : Nat} (hk : k < 7) : (CCR.setI c b).getLsbD k = c.getLsbD k := by
  interval_cases k
  · exact c_setI c b
  · exact v_setI c b
  · exact z_setI c b
  · exact n_setI c b
  · exact u4_setI c b
  · exact h_setI c b
  · exact u6_setI c b

theorem entered_keepsRegs (s : State) (src : IntSource) : s.KeepsRegsBut (s.entered src) Reg16.r7.bytes := fun r hr =>
  have hregs : (s.entered src).regs = s.framed.regs := rfl
  (regB_of_regs hregs r).trans (framed_keepsRegs s r hr)

theorem entered_peek (s : State) (src : IntSource) (x : Word) : (s.entered src).peek x = s.framed.peek x :=
  have hmem : (s.entered src).mem = s.framed.mem := rfl
  peek_of_mem hmem x

theorem entered_peekWord (s : State) (src : IntSource) (a : Word) :
    (s.entered src).peekWord a = s.framed.peekWord a := by
  rw [State.peekWord, State.peekWord, entered_peek, entered_peek]

theorem entered_pc (s : State) (src : IntSource) :
    (s.entered src).pc = (s.entered src).peekWord src.vector &&& 0xFFFE#16 := by
  rw [entered_peekWord]
  rfl

/-- An interrupt taken from the state past the boundary, of a CPU that is not right after reset. -/
theorem entersInterrupt_takeInterrupt {s : State} {src : IntSource} (hoff : s.holdOff = false) (h : s.CanEnter src) :
    s.EntersInterrupt (outcome (s.pastBoundary.takeInterrupt src)) src := by
  have hpast : s.pastBoundary.CanEnter src := h
  have hstep := congrArg outcome (takeInterrupt_ok hpast)
  obtain ⟨hpc, hccr, _⟩ := hpast
  have hlog := framed_envLog hpc hccr
  refine ⟨s.pastBoundary.entered src, hstep, framed_reg_sp s.pastBoundary, ?_, ?_, ?_, ?_, entered_pc _ _, i_setI _ _,
    fun k hk => getLsbD_setI _ _ hk, rfl, ?_, ?_, ?_, ?_, ?_⟩
  · exact fun r hr => (entered_keepsRegs s.pastBoundary src r hr).trans (pastBoundary_regB s r)
  · exact (entered_peekWord _ src _).trans (framed_peekWord_pc hpc)
  · exact (entered_peek _ src _).trans (framed_peek_ccr hccr)
  · exact fun x hx => (entered_peek _ src x).trans (framed_keepsMem s.pastBoundary x hx)
  · exact (framed_holdOff s.pastBoundary).trans hoff
  · exact framed_chip s.pastBoundary
  · exact framed_inputs s.pastBoundary
  · exact framed_deviceIn s.pastBoundary
  · exact congrArg (EnvEvent.accepted src.id :: ·) hlog

/-- Settles O52: the highest request is the source that is found. -/
theorem interruptEntry : Obligations.InterruptEntry := by
  intro s b later src hmode hoff hinputs hreset haccept hhigh hcan
  have hboundary := boundary_cons hinputs
  subst hboundary
  rw [step_interrupted hmode hreset (acceptedSource_of_highest hoff haccept hhigh)]
  exact entersInterrupt_takeInterrupt hoff hcan

/-- Settles O54: no source is found, the list has ended, or the highest request is found. -/
theorem powerDownStaysOrWakes : Obligations.PowerDownStaysOrWakes := by
  intro s hmode hreset
  refine ⟨fun hmasked => ?_, fun hnil => ?_, fun src hoff hhigh hcan => ?_⟩
  · refine step_powerDown hmode hreset (wakeSource_none fun src hsrc hwakes => ?_)
    rw [← Bool.not_eq_true, acceptable_iff]
    rintro ⟨hreq, htaken⟩
    obtain ⟨hmaskable, hi⟩ := hmasked src hsrc hwakes hreq
    simp [hmaskable, hi] at htaken
  · have hnone := wakeSource_none fun src _ _ => acceptable_quiet (boundary_nil hnil) src
    have hpast : s.pastBoundary = s := by
      obtain ⟨_, _, _, _, _, _, _, inputs, _, _, _⟩ := s
      cases hnil
      rfl
    rw [step_powerDown hmode hreset hnone, hpast]
  · rw [step_wakes hmode hreset (wakeSource_of_highest hhigh)]
    exact entersInterrupt_takeInterrupt hoff hcan

/-! ### The return from an interrupt (R300, R342) -/

theorem wordStorage_of_wordRam {s t : State} {a : Word} (h : s.WordRam a) (hchip : t.chip = s.chip) :
    t.WordStorage a := by
  obtain ⟨hw, h0, h1⟩ := h
  rw [State.WordStorage, State.Storage, State.Storage, hchip]
  exact ⟨hw, .inl h0, .inl h1⟩

/-- RTE where both words are storage. -/
theorem execRte_of_wordStorage {t : State} (h0 : t.WordStorage (t.reg .r7)) (h1 : t.WordStorage (t.reg .r7 + 2#16)) :
    exec .rte t = .next ((((t.setReg .r7 (t.reg .r7 + 2#16)).setCcr (t.peek (evenAddr (t.reg .r7)))).setReg .r7
      (t.reg .r7 + 4#16)).setPc (t.peekWord (t.reg .r7 + 2#16))) := by
  obtain ⟨hw0, hupper0, hlower0⟩ := h0
  obtain ⟨hw1, hupper1, hlower1⟩ := h1
  have hexec : exec .rte t = _ := congrArg outcome (returnFromException_ok hw0 hw1)
  have hfirst : t.twoBytes (t.reg .r7) = (t.peekWord (t.reg .r7), t) := twoBytes_of_storage t _ hupper0 hlower0
  have hsecond : t.twoWords = (t.peekWord (t.reg .r7 + 2#16), t) := by
    rw [State.twoWords, hfirst, twoBytes_of_storage t _ hupper1 hlower1]
  have hccr : hi8 (t.peekWord (t.reg .r7)) = t.peek (evenAddr (t.reg .r7)) := hi8_word _ _
  rw [hexec, hfirst, hsecond, hccr]
  rfl

theorem regFile_ext {f g : RegFile} (h : ∀ n, f.get n = g.get n) : f = g := by
  obtain ⟨_, _, _, _, _, _, _, _⟩ := f
  obtain ⟨_, _, _, _, _, _, _, _⟩ := g
  rw [RegFile.mk.injEq]
  exact ⟨h .r0, h .r1, h .r2, h .r3, h .r4, h .r5, h .r6, h .r7⟩

/-- Settles O57: RTE reads the frame that the entry has left. -/
theorem interruptThenRteRestores : Obligations.InterruptThenRteRestores := by
  intro s b later src heven hmode hoff hinputs hreset haccept hhigh hcan
  obtain ⟨t, hstep, hsp, hregs, hpc, hccr, _, _, _, _, htmode, _, hchip, htinputs, _⟩ :=
    interruptEntry s b later src hmode hoff hinputs hreset haccept hhigh hcan
  obtain ⟨hrampc, hramccr, _⟩ := hcan
  have hsp2 : t.reg .r7 + 2#16 = s.reg .r7 - 2#16 := by rw [hsp]; bv_omega
  have hsp4 : t.reg .r7 + 4#16 = s.reg .r7 := by rw [hsp]; bv_omega
  have hrte := execRte_of_wordStorage (t := t) (by rw [hsp]; exact wordStorage_of_wordRam hramccr hchip)
    (by rw [hsp2]; exact wordStorage_of_wordRam hrampc hchip)
  refine ⟨t, _, hstep, hrte, ?_, ?_, regFile_ext fun n => ?_, htmode, rfl, hchip, ?_⟩
  · rw [setPc_pc, hsp2, hpc]
    exact evenAddr_of_even heven
  · simp only [setPc_ccr, setReg_ccr, setCcr_ccr, hsp]
    exact hccr
  · rw [← State.reg, ← State.reg, setPc_reg]
    by_cases hn : n = .r7
    · rw [hn, reg_setReg_same, hsp4]
    · rw [reg_setReg_ne _ _ hn, setCcr_reg, reg_setReg_ne _ _ hn, reg_eq_word, reg_eq_word,
        hregs (.hi n) (by simp [Reg16.bytes, hn]), hregs (.lo n) (by simp [Reg16.bytes, hn])]
  · exact htinputs.trans (by rw [hinputs, List.tail_cons])

/-! ### Reset (R330, R332, R334) -/

theorem takeReset_ok {s : State} (h : s.WordStorage s.chip.resetVector) :
    s.takeReset = .ok { (s.scrambleCcr.scrambleRegs.setPc (s.peekWord s.chip.resetVector)).setMode
      .programExecution with holdOff := true } := by
  have hjump := jumpThroughVector_ok (s := s.scrambleCcr.scrambleRegs) h
  simp only [State.takeReset, hjump]
  rfl

/-- Settles O55: the entry reads the vector and writes no memory. -/
theorem resetEntry : Obligations.ResetEntry := by
  intro s
  refine ⟨fun hresets hvector => ?_, fun hhold => step_held hhold⟩
  have hstep := (step_resets hresets).trans (congrArg outcome (takeReset_ok (s := s.pastBoundary) hvector))
  exact ⟨_, hstep, rfl, i_setI _ _, rfl, rfl, fun _ _ => rfl, rfl, rfl, rfl, rfl⟩

end Sys2Proof.Machine
end
